-- ==== Sys2Proof/Word.lean ====
section
/-! DEFINITION. The word types of the machine (spec/00_scope.md R8, R14; spec/30_encoding.md R80).
Every word is unsigned; no rule of the spec has a signed value. -/

namespace Sys2Proof

/-- One byte of BUF (R56). -/
abbrev Byte := BitVec 8

/-- One 64-bit word: a word of a word-vector, a command word, an entropy word, a bus datum (R8). -/
abbrev Word64 := BitVec 64

/-- A word-vector: six 64-bit words, least significant first, read as one 384-bit integer (R14, R20). -/
abbrev Vli := BitVec 384

/-- A register field of a command: an unsigned index 0..15 into V0..V15 (R81). -/
abbrev Reg := BitVec 4

/-- The unsigned 9-bit immediate field of a command (R83). -/
abbrev Imm := BitVec 9

end Sys2Proof
end

