-- ==== Sys2Proof/Config.lean ====
section
/-! DEFINITION. What the platform fixes and what the spec leaves open: the open base address, the draw
budget, and the free value a host reads from V or BUF while a command runs. -/

namespace Sys2Proof.Config

/-- DESIGN CHOICE (log entry 7). The base address of the host window, left OPEN by the spec (R50, D2, I1):
a constant without a body, so nothing can rest on its value. -/
opaque base : Nat

/-- The bound on entropy draws per command (R10: "Its value for this hardware is 1024"), log entry 8. -/
def maxDraws : Nat := 1024

/-- DESIGN CHOICE (log entry 6). The unspecified value that the k-th host read of V or BUF made while
BUSY returns (R291, I6): a constant without a body, applied to the counter `State.reads`. -/
opaque busyRead : Nat → Word64

end Sys2Proof.Config
end

