-- ==== Sys2Proof/Syntax.lean ====
section
/-! DEFINITION. The command set: one constructor per row of spec/opcode_table.json (R87), with the fields that
row uses. Register groups are named by their first register (R81). -/

namespace Sys2Proof

/-- The modulus a field command uses, chosen by the M bit (R84): `p` for M = 0, `n` for M = 1. -/
inductive Modulus where
  | p
  | n
deriving DecidableEq, Repr

/-- A command, with the operand fields its row of R87 lists as used. -/
inductive Instr where
  -- System (46_system.md)
  | nop
  | zeroize
  -- Constant store (44_codec.md)
  | ldc (rd : Reg) (imm : Imm)
  -- Word-vector commands (40_vli.md)
  | vset (rd ra : Reg)
  | viszero (ra : Reg)
  | vtestbit (ra : Reg) (imm : Imm)
  | vnumbits (rd ra : Reg)
  | vcmp (ra rb : Reg)
  | vlshift1 (rd ra : Reg)
  | vrshift1 (rd ra : Reg)
  | vadd (rd ra rb : Reg)
  | vsub (rd ra rb : Reg)
  | vmul (rd ra rb : Reg)
  | vsqr (rd ra : Reg)
  -- Field and scalar arithmetic commands (41_field.md)
  | modadd (rd ra rb : Reg) (m : Modulus)
  | modsub (rd ra rb : Reg) (m : Modulus)
  | modmul (rd ra rb : Reg) (m : Modulus)
  | modsqr (rd ra : Reg) (m : Modulus)
  | redp (rd ra : Reg)
  | modinv (rd ra : Reg) (m : Modulus)
  | modsqrt (rd ra : Reg)
  -- Curve point commands (42_point.md)
  | jdbl (rd : Reg)
  | applyz (rd rc : Reg)
  | cozadd (ra rb : Reg)
  | cozaddc (ra rb : Reg)
  -- Scalar multiplication commands (43_scalar_mult.md); SMUL's `z` is the register RC of the form with
  -- ZR = 1, and `none` is the form with ZR = 0 and RC = 0 (R85)
  | lstep (ra : Reg) (imm : Imm)
  | smul (rd ra rb : Reg) (z : Option Reg)
  -- Byte conversion and point encoding commands (44_codec.md)
  | loadb (rd : Reg) (imm : Imm)
  | storeb (ra : Reg) (imm : Imm)
  | pcomp (ra : Reg) (imm : Imm)
  | pdecomp (rd : Reg) (imm : Imm)
  -- Protocol commands (45_protocol.md)
  | keygen
  | sign
  | verify
  | ecdh
deriving DecidableEq, Repr

/-- The two ways a command word fails decode (R89, R250). -/
inductive DecodeError where
  /-- OP is not in the opcode map (R90). -/
  | illegalOpcode
  /-- A fixed bit or unused field is nonzero, a group passes V15, co-Z pairs overlap, or IMM is out of range. -/
  | illegalOperand
deriving DecidableEq, Repr

end Sys2Proof
end

