-- ==== Sys2Proof/Machine/State.lean ====
section
/-! DEFINITION. The state of the machine (R40, R281), the events of the agents around it (R298), and the
reasons a step can stop. -/

namespace Sys2Proof.Machine

/-- The error codes of STATUS.ERR (R250). The codes 0x07 to 0xFF are reserved and never written, so they are
no value of this type. -/
inductive ErrCode where
  | ok
  | illegalOpcode
  | illegalOperand
  | range
  | malformed
  | randomExhausted
  | infinity
deriving DecidableEq, Repr

/-- The sequencing state of the core (R35). STATUS.BUSY mirrors it (log entry 3). -/
inductive Phase where
  | idle
  | busy
deriving DecidableEq, Repr

/-- What one of the agents does next (R298): the host, the entropy source, the core, or the reset input. -/
inductive Event where
  /-- A host write: offset from BASE in [0, 0xFFF], size in bytes, data (R50). -/
  | hostWrite (off : BitVec 12) (size : Nat) (data : Word64)
  /-- A host read: offset from BASE in [0, 0xFFF], size in bytes (R50). -/
  | hostRead (off : BitVec 12) (size : Nat)
  /-- The entropy source presents a word: ent_valid = 1 with this ent_data (R62). -/
  | entropyWord (e : Word64)
  /-- The core has a turn: it completes its command if it has every entropy word it needs (R298). -/
  | coreTurn
  /-- The reset input `rst` takes this level (R280). -/
  | rst (level : Bool)
deriving DecidableEq, Repr

/-- BUF as (offset, byte) pairs in canonical form: offsets strictly rising and below 512, and no entry equal to
what an unlisted byte reads as (`Memory.wf`). -/
abbrev Memory := List Host.Cell

/-- The state. Every field up to `entropy` is the spec's (R40, R298); the last four are the model's own. -/
structure State where
  /-- V0..V15 (R20). -/
  v : Vector Vli 16
  /-- BUF[0..511] (R56). -/
  buf : Memory
  /-- CTRL.IEN (R30). -/
  ien : Bool
  /-- IDLE or BUSY (R35); STATUS.BUSY is 1 exactly when it is BUSY. -/
  phase : Phase
  /-- STATUS.DONE (R32). -/
  done : Bool
  /-- STATUS.OVR (R32). -/
  ovr : Bool
  /-- STATUS.ERR (R32, R250). -/
  err : ErrCode
  /-- The flag Z (R24). -/
  z : Bool
  /-- The flag C (R25). -/
  c : Bool
  /-- The flag CMP: 00 equal, 01 greater, 11 less (R26). -/
  cmp : BitVec 2
  /-- The flag BIT (R27). -/
  bit : Bool
  /-- The flag VOK (R28). -/
  vok : Bool
  /-- CMD, the last accepted command word (R33). -/
  cmd : Word64
  /-- DRAWS, the candidate count of the last completed command (R34). -/
  draws : Word64
  /-- The output irq (R38). -/
  irq : Bool
  /-- The output ent_ready (R39). -/
  entReady : Bool
  /-- The entropy words the command in progress has taken, in transfer order (R62, R298). -/
  entropy : List Word64
  /-- Model's own: the present level of the reset input (log entry 4). -/
  rst : Bool
  /-- Model's own: the value the last host read returned (log entry 5). -/
  rdata : Word64
  /-- Model's own: how many unspecified read values have been handed out (log entry 6). -/
  reads : Nat
  /-- Model's own: the schedule of events still to come, next first (log entry 1). -/
  env : List Event
deriving DecidableEq, Repr

/-- Why a step stops with a fault. There is no such reason: every error of this hardware is a completion with
a code in STATUS.ERR (R250, R252), no host access fails (R50, R255), and a command that waits for entropy for ever
is a machine that stays BUSY (R64). -/
inductive Fault where
deriving DecidableEq, Repr

/-- Why a step refuses. -/
inductive Refusal where
  /-- Raised by `exec` for an instruction that has no meaning yet, named by its mnemonic. Safe: the run stops.
  No arm of `exec` raises it. -/
  | notModelled (mnemonic : String)
deriving DecidableEq, Repr

/-- The machine right after reset: every value is that of R281. The last four fields are the model's own
(log entries 1, 4, 5, 6). -/
def State.reset : State where
  v := Vector.replicate 16 0
  buf := []
  ien := false
  phase := .idle
  done := false
  ovr := false
  err := .ok
  z := false
  c := false
  cmp := 0
  bit := false
  vok := false
  cmd := 0
  draws := 0
  irq := false
  entReady := false
  entropy := []
  rst := false
  rdata := 0
  reads := 0
  env := []

end Sys2Proof.Machine
end

