-- ==== Sys2Proof/Machine/Arith.lean ====
section
/-! DEFINITION. The curve constants (R12, R200) and the modular arithmetic of 41_field.md over integers. The loops
the spec writes with `while` run on a count that is never too small (log entry 15). -/

namespace Sys2Proof.Machine

/-! ### Constants -/

/-- The field prime p (R12, R13): 2^384 − 2^128 − 2^96 + 2^32 − 1. -/
def fieldPrime : Nat :=
  0xFFFFFFFFFFFFFFFFFFFFFFFFFFFFFFFFFFFFFFFFFFFFFFFFFFFFFFFFFFFFFFFEFFFFFFFF0000000000000000FFFFFFFF

/-- The group order n (R12; log entry 10). -/
def groupOrder : Nat :=
  0xFFFFFFFFFFFFFFFFFFFFFFFFFFFFFFFFFFFFFFFFFFFFFFFFC7634D81F4372DDF581A0DB248B0A77AECEC196ACCC52973

/-- The curve coefficient b (R12; log entry 10). -/
def curveB : Nat :=
  0xB3312FA7E23EE7E4988E056BE3F82D19181D9C6EFE8141120314088F5013875AC656398D8A2ED19D2A85C8EDD3EC2AEF

/-- The generator's x (R12; log entry 10). -/
def genX : Nat :=
  0xAA87CA22BE8B05378EB1C71EF320AD746E1D3B628BA79B9859F741E082542A385502F25DBF55296C3A545E3872760AB7

/-- The generator's y (R12; log entry 10). -/
def genY : Nat :=
  0x3617DE4A96262C6F5D9E98BF9292DC29F8F41DBD289A147CE9DA3113B5F0B8C00A60B1CE1D7E819D7A431D7C90EA0E5F

/-- The reduction multiplier ω = 2^128 + 2^96 − 2^32 + 1 (R13, R133). -/
def omega : Nat := 2 ^ 128 + 2 ^ 96 - 2 ^ 32 + 1

/-- The constant store (R200). It has eight entries; decode admits no other index (R83). -/
def constantStore : Nat → Nat
  | 0 => 0
  | 1 => 1
  | 2 => fieldPrime
  | 3 => groupOrder
  | 4 => curveB
  | 5 => genX
  | 6 => genY
  | _ => fieldPrime - 3

/-- The modulus of a field command: p for M = 0, n for M = 1 (R84, R130). -/
def modulusValue : Modulus → Nat
  | .p => fieldPrime
  | .n => groupOrder

/-! ### Field and scalar arithmetic -/

/-- `addm` (R131). -/
def modAdd (m a b : Nat) : Nat := if m ≤ a + b then a + b - m else a + b

/-- `subm` (R132). -/
def modSub (m a b : Nat) : Nat := if a < b then a + m - b else a - b

/-- The fold loop of FastReduce (R133), at most `fuel` folds. Three are always enough (R139). -/
def foldHigh : Nat → Nat → Nat
  | 0, x => x
  | fuel + 1, x => if x / 2 ^ 384 = 0 then x else foldHigh fuel (x % 2 ^ 384 + omega * (x / 2 ^ 384))

/-- FastReduce (R133). The last loop subtracts at most once, since a folded value is below 2p (R139); its test
is strict, so a folded value equal to p stays p (C5). -/
def fastReduce (x : Nat) : Nat :=
  let y := foldHigh 3 x
  if fieldPrime < y then y - fieldPrime else y

/-- `mulm`: the reduction of the exact product, by FastReduce for p (R134) and by value for n (R137). -/
def modMul (m : Modulus) (a b : Nat) : Nat :=
  match m with
  | .p => fastReduce (a * b)
  | .n => a * b % groupOrder

/-- `half(t)`: t/2 mod an odd m (R141). -/
def half (m t : Nat) : Nat := if t % 2 = 0 then t / 2 else (t + m) / 2

/-- The loop of the binary extended Euclid (R141) on a, b, u, v. -/
def binInvLoop (m : Nat) : Nat → Nat → Nat → Nat → Nat → Nat
  | 0, _, _, u, _ => u
  | fuel + 1, a, b, u, v =>
    if a = b then u
    else if a % 2 = 0 then binInvLoop m fuel (a / 2) b (half m u) v
    else if b % 2 = 0 then binInvLoop m fuel a (b / 2) u (half m v)
    else if b < a then binInvLoop m fuel ((a - b) / 2) b (half m (modSub m u v)) v
    else binInvLoop m fuel a ((b - a) / 2) u (half m (modSub m v u))

/-- `BinInv(x, m)` (R141): the inverse of x mod m, and 0 for 0. Each turn shortens a or b by at least one of
their 768 bits in all. -/
def binInv (x m : Nat) : Nat := if x = 0 then 0 else binInvLoop m 768 x m 1 0

/-- Square and multiply: `acc · b^e mod m`, for e below 2^fuel. -/
def powLoop (m : Nat) : Nat → Nat → Nat → Nat → Nat
  | 0, _, _, acc => acc
  | fuel + 1, b, e, acc =>
    if e = 0 then acc else powLoop m fuel (b * b % m) (e / 2) (if e % 2 = 1 then acc * b % m else acc)

/-- `b^e mod m` for a 384-bit exponent. -/
def powMod (m b e : Nat) : Nat := powLoop m 384 (b % m) e (1 % m)

/-- The square root candidate `a^((p+1)/4) mod p` (R143, R207). -/
def sqrtCandidate (a : Nat) : Nat := powMod fieldPrime a ((fieldPrime + 1) / 4)

end Sys2Proof.Machine
end

