-- ==== Sys2Proof/Machine/Curve.lean ====
section
/-! DEFINITION. The field F_p of the point formulas (R160), the formulas themselves (R161 to R181), the group law of
the curve (R16, R184) and point decompression (R207). Every field expression is a canonical residue mod p
(log entry 16). -/

namespace Sys2Proof.Machine

/-! ### F_p -/

/-- `fadd` as an expression over F_p. -/
def fadd (a b : Nat) : Nat := (a + b) % fieldPrime

/-- `fsub` as an expression over F_p. -/
def fsub (a b : Nat) : Nat := (a + (fieldPrime - b % fieldPrime)) % fieldPrime

/-- `fmul` as an expression over F_p. -/
def fmul (a b : Nat) : Nat := a * b % fieldPrime

/-- `fsqr` as an expression over F_p. -/
def fsqr (a : Nat) : Nat := fmul a a

/-- `half(t) = t · 2^(−1) mod p` (R160). -/
def fhalf (t : Nat) : Nat := half fieldPrime (t % fieldPrime)

/-- `finv` (R140 with m = p). -/
def finv (a : Nat) : Nat := binInv (a % fieldPrime) fieldPrime

/-! ### Point formulas -/

/-- The co-ordinates of JDBL for Z ≠ 0 (R161). -/
def jacobianDouble (x y z : Nat) : Nat × Nat × Nat :=
  let a := fmul x (fsqr y)
  let b := fhalf (fmul 3 (fmul (fsub x (fsqr z)) (fadd x (fsqr z))))
  let x3 := fsub (fsqr b) (fmul 2 a)
  let y3 := fsub (fmul b (fsub a x3)) (fsqr (fsqr y))
  let z3 := fmul y z
  (x3, y3, z3)

/-- `apply_z`: (X·Z², Y·Z³) (R163). -/
def applyZ (x y z : Nat) : Nat × Nat := (fmul x (fsqr z), fmul y (fmul (fsqr z) z))

/-- `CozAdd(P, Q)` = (P', P + Q) on co-Z pairs (R165). -/
def cozAdd (p q : Nat × Nat) : (Nat × Nat) × (Nat × Nat) :=
  let a := fsqr (fsub q.1 p.1)
  let b := fmul p.1 a
  let c := fmul q.1 a
  let x3 := fsub (fsub (fsqr (fsub q.2 p.2)) b) c
  let y1' := fmul p.2 (fsub c b)
  let y3 := fsub (fmul (fsub q.2 p.2) (fsub b x3)) y1'
  ((b, y1'), (x3, y3))

/-- `CozAddC(P, Q)` = (P − Q, P + Q) on co-Z pairs (R167). -/
def cozAddC (p q : Nat × Nat) : (Nat × Nat) × (Nat × Nat) :=
  let a := fsqr (fsub q.1 p.1)
  let b := fmul p.1 a
  let c := fmul q.1 a
  let y1' := fmul p.2 (fsub c b)
  let x3 := fsub (fsqr (fsub q.2 p.2)) (fadd b c)
  let y3 := fsub (fmul (fsub q.2 p.2) (fsub b x3)) y1'
  let xd := fsub (fsqr (fadd q.2 p.2)) (fadd b c)
  let yd := fsub (fmul (fadd q.2 p.2) (fsub xd b)) y1'
  ((xd, yd), (x3, y3))

/-- One ladder step on (R0, R1) for the scalar bit `b` (R181): CozAddC on (R[b], R[1−b]), then CozAdd on
(R[1−b], R[b]). -/
def ladderStep (b : Nat) (r0 r1 : Nat × Nat) : (Nat × Nat) × (Nat × Nat) :=
  if b = 0 then
    let t := cozAddC r0 r1
    let u := cozAdd t.2 t.1
    (u.2, u.1)
  else
    let t := cozAddC r1 r0
    let u := cozAdd t.2 t.1
    (u.1, u.2)

/-! ### The group of the curve -/

/-- A point of E in affine form, or the point at infinity O (R16). -/
inductive Point where
  | infinity
  | affine (x y : Nat)
deriving DecidableEq, Repr

/-- The encoding of O as (0, 0) (R16). -/
def Point.coords : Point → Nat × Nat
  | .infinity => (0, 0)
  | .affine x y => (x, y)

/-- The right-hand side x³ − 3x + b of the curve equation in F_p (R16, R207). -/
def curveRhs (x : Nat) : Nat := fsub (fadd (fmul (fsqr x) x) curveB) (fmul 3 x)

/-- The point (x, y) satisfies y² = x³ − 3x + b (mod p) (R16). -/
def onCurve (x y : Nat) : Bool := fsqr y == curveRhs x

/-- The third point of a line of slope `l` through a point with x-coordinate `x1`, `y1` and one with `x2`,
reflected. -/
def chordPoint (l x1 y1 x2 : Nat) : Point :=
  let x3 := fsub (fsub (fsqr l) x1) x2
  .affine x3 (fsub (fmul l (fsub x1 x3)) y1)

/-- The group law of E (R16): O is the identity, a point and its negation sum to O, and otherwise the chord or
the tangent. -/
def Point.add : Point → Point → Point
  | .infinity, q => q
  | .affine x y, .infinity => .affine x y
  | .affine x1 y1, .affine x2 y2 =>
    if x1 = x2 then
      if fadd y1 y2 = 0 then .infinity
      else chordPoint (fmul (fsub (fmul 3 (fsqr x1)) 3) (finv (fmul 2 y1))) x1 y1 x2
    else chordPoint (fmul (fsub y2 y1) (finv (fsub x2 x1))) x1 y1 x2

/-- `[k]P` by its binary expansion: [k]P = [2][k/2]P + [k mod 2]P, for k below 2^fuel. -/
def Point.mulLoop (P : Point) : Nat → Nat → Point
  | 0, _ => .infinity
  | fuel + 1, k =>
    if k = 0 then .infinity
    else
      let h := Point.mulLoop P fuel (k / 2)
      let d := h.add h
      if k % 2 = 1 then d.add P else d

/-- `[k]P`, the k-fold sum of P for a 384-bit k (R16). -/
def Point.mul (k : Nat) (P : Point) : Point := Point.mulLoop P 384 k

/-- The generator G (R12). -/
def generator : Point := .affine genX genY

/-- The affine x-coordinate; O has none and is tested before it is asked for (R230). -/
def Point.x : Point → Nat
  | .infinity => 0
  | .affine x _ => x

/-- The affine y-coordinate, as `Point.x`. -/
def Point.y : Point → Nat
  | .infinity => 0
  | .affine _ y => y

/-! ### Point encoding -/

/-- The prefix byte 0x02 + (y mod 2) (R204). -/
def parityPrefix (y : Nat) : Byte := BitVec.ofNat 8 (0x02 + y % 2)

/-- `Decompress` (R207) on the prefix byte and the x-coordinate of a 49-byte string; `none` is MALFORMED. -/
def decompress (pre x : Nat) : Option (Nat × Nat) :=
  if pre ≠ 0x02 ∧ pre ≠ 0x03 then none
  else if fieldPrime ≤ x then none
  else
    let y := sqrtCandidate (curveRhs x)
    if fsqr y ≠ curveRhs x then none
    else some (x, if y % 2 = pre % 2 then y else fieldPrime - y)

end Sys2Proof.Machine
end

