-- ==== Sys2Proof/WellFormed.lean ====
section
/-! DEFINITION. The operand checks of decode (R89, its last three): register groups that pass V15 (R81), co-Z
pairs that overlap (R82), immediates out of range (R83). -/

namespace Sys2Proof

/-- A group of `k` registers that starts at `r` lies inside V0..V15 (R81). -/
def groupFits (k : Nat) (r : Reg) : Bool := decide (r.toNat + k ≤ 16)

/-- Two register pairs that share no register: `|RA − RB| ≥ 2` (R82). -/
def pairsDisjoint (ra rb : Reg) : Bool :=
  decide (ra.toNat + 2 ≤ rb.toNat ∨ rb.toNat + 2 ≤ ra.toNat)

/-- The immediate is at most `hi` (R83). -/
def immAtMost (hi : Nat) (imm : Imm) : Bool := decide (imm.toNat ≤ hi)

/-- The operand checks of R81 to R83 for each command. -/
def Instr.wellFormed : Instr → Bool
  | .nop => true
  | .zeroize => true
  | .ldc _ imm => immAtMost 7 imm
  | .vset _ _ => true
  | .viszero _ => true
  | .vtestbit _ imm => immAtMost 383 imm
  | .vnumbits _ _ => true
  | .vcmp _ _ => true
  | .vlshift1 _ _ => true
  | .vrshift1 _ _ => true
  | .vadd _ _ _ => true
  | .vsub _ _ _ => true
  | .vmul rd _ _ => groupFits 2 rd
  | .vsqr rd _ => groupFits 2 rd
  | .modadd _ _ _ _ => true
  | .modsub _ _ _ _ => true
  | .modmul _ _ _ _ => true
  | .modsqr _ _ _ => true
  | .redp _ ra => groupFits 2 ra
  | .modinv _ _ _ => true
  | .modsqrt _ _ => true
  | .jdbl rd => groupFits 3 rd
  | .applyz rd _ => groupFits 2 rd
  | .cozadd ra rb => groupFits 2 ra && groupFits 2 rb && pairsDisjoint ra rb
  | .cozaddc ra rb => groupFits 2 ra && groupFits 2 rb && pairsDisjoint ra rb
  | .lstep ra imm => groupFits 4 ra && immAtMost 1 imm
  | .smul rd ra _ _ => groupFits 2 rd && groupFits 2 ra
  | .loadb _ imm => immAtMost 464 imm
  | .storeb _ imm => immAtMost 464 imm
  | .pcomp ra imm => groupFits 2 ra && immAtMost 463 imm
  | .pdecomp rd imm => groupFits 2 rd && immAtMost 463 imm
  | .keygen => true
  | .sign => true
  | .verify => true
  | .ecdh => true

end Sys2Proof
end

