-- ==== Sys2Proof/Decode.lean ====
section
/-! DEFINITION. Decoding a command word (R80, R87 to R90) and, after it, encoding one. -/

namespace Sys2Proof

/-- The slice `v[hi:lo]` of R14. -/
def slice (v hi lo : Nat) : Nat := v / 2 ^ lo % 2 ^ (hi - lo + 1)

/-- The opcode field OP (R80). -/
def fieldOp (w : Word64) : Nat := slice w.toNat 7 0

/-- The register field RD (R80). -/
def fieldRd (w : Word64) : Reg := BitVec.ofNat 4 (slice w.toNat 11 8)

/-- The register field RA (R80). -/
def fieldRa (w : Word64) : Reg := BitVec.ofNat 4 (slice w.toNat 15 12)

/-- The register field RB (R80). -/
def fieldRb (w : Word64) : Reg := BitVec.ofNat 4 (slice w.toNat 19 16)

/-- The register field RC (R80). -/
def fieldRc (w : Word64) : Reg := BitVec.ofNat 4 (slice w.toNat 23 20)

/-- The M bit (R80). -/
def fieldM (w : Word64) : Nat := slice w.toNat 24 24

/-- The ZR bit (R80). -/
def fieldZr (w : Word64) : Nat := slice w.toNat 25 25

/-- The immediate field IMM (R80). -/
def fieldImm (w : Word64) : Imm := BitVec.ofNat 9 (slice w.toNat 40 32)

/-- The modulus M selects (R84). -/
def modulusOf (m : Nat) : Modulus := if m = 0 then .p else .n

/-- The reserved bits 31:26 and 63:41 are zero (R88). -/
def reservedZero (w : Word64) : Bool := slice w.toNat 31 26 == 0 && slice w.toNat 63 41 == 0

/-- Which of the seven operand fields a row of R87 lists as used. -/
structure Uses where
  rd : Bool := false
  ra : Bool := false
  rb : Bool := false
  rc : Bool := false
  m : Bool := false
  zr : Bool := false
  imm : Bool := false
deriving DecidableEq, Repr

/-- Every field that is not used is zero (R88). -/
def unusedZero (u : Uses) (w : Word64) : Bool :=
  (u.rd || fieldRd w == 0) && (u.ra || fieldRa w == 0) && (u.rb || fieldRb w == 0) &&
  (u.rc || fieldRc w == 0) && (u.m || fieldM w == 0) && (u.zr || fieldZr w == 0) &&
  (u.imm || fieldImm w == 0)

/-- The checks of R89 after the opcode is known, in its order: reserved bits, unused fields, then the operand
checks. All of them fail with ILLEGAL_OPERAND. -/
def checked (u : Uses) (w : Word64) (i : Instr) : Except DecodeError Instr :=
  if reservedZero w && unusedZero u w && i.wellFormed then .ok i else .error .illegalOperand

/-- Decoding a command word (R89). Total: an unknown opcode is ILLEGAL_OPCODE (R90), every other failure
ILLEGAL_OPERAND. -/
def decode (w : Word64) : Except DecodeError Instr :=
  let rd := fieldRd w
  let ra := fieldRa w
  let rb := fieldRb w
  let rc := fieldRc w
  let m := modulusOf (fieldM w)
  let imm := fieldImm w
  match fieldOp w with
  | 0x00 => checked { } w .nop
  | 0x01 => checked { } w .zeroize
  | 0x02 => checked { rd := true, imm := true } w (.ldc rd imm)
  | 0x08 => checked { rd := true, ra := true } w (.vset rd ra)
  | 0x09 => checked { ra := true } w (.viszero ra)
  | 0x0A => checked { ra := true, imm := true } w (.vtestbit ra imm)
  | 0x0B => checked { rd := true, ra := true } w (.vnumbits rd ra)
  | 0x0C => checked { ra := true, rb := true } w (.vcmp ra rb)
  | 0x0D => checked { rd := true, ra := true } w (.vlshift1 rd ra)
  | 0x0E => checked { rd := true, ra := true } w (.vrshift1 rd ra)
  | 0x0F => checked { rd := true, ra := true, rb := true } w (.vadd rd ra rb)
  | 0x10 => checked { rd := true, ra := true, rb := true } w (.vsub rd ra rb)
  | 0x11 => checked { rd := true, ra := true, rb := true } w (.vmul rd ra rb)
  | 0x12 => checked { rd := true, ra := true } w (.vsqr rd ra)
  | 0x20 => checked { rd := true, ra := true, rb := true, m := true } w (.modadd rd ra rb m)
  | 0x21 => checked { rd := true, ra := true, rb := true, m := true } w (.modsub rd ra rb m)
  | 0x22 => checked { rd := true, ra := true, rb := true, m := true } w (.modmul rd ra rb m)
  | 0x23 => checked { rd := true, ra := true, m := true } w (.modsqr rd ra m)
  | 0x24 => checked { rd := true, ra := true } w (.redp rd ra)
  | 0x25 => checked { rd := true, ra := true, m := true } w (.modinv rd ra m)
  | 0x26 => checked { rd := true, ra := true } w (.modsqrt rd ra)
  | 0x30 => checked { rd := true } w (.jdbl rd)
  | 0x31 => checked { rd := true, rc := true } w (.applyz rd rc)
  | 0x32 => checked { ra := true, rb := true } w (.cozadd ra rb)
  | 0x33 => checked { ra := true, rb := true } w (.cozaddc ra rb)
  | 0x38 => checked { ra := true, imm := true } w (.lstep ra imm)
  | 0x39 =>
    -- RC is used only with ZR = 1; with ZR = 0 it must be zero (R85, R88)
    if fieldZr w = 0 then checked { rd := true, ra := true, rb := true } w (.smul rd ra rb none)
    else checked { rd := true, ra := true, rb := true, rc := true, zr := true } w (.smul rd ra rb (some rc))
  | 0x40 => checked { rd := true, imm := true } w (.loadb rd imm)
  | 0x41 => checked { ra := true, imm := true } w (.storeb ra imm)
  | 0x42 => checked { ra := true, imm := true } w (.pcomp ra imm)
  | 0x43 => checked { rd := true, imm := true } w (.pdecomp rd imm)
  | 0x50 => checked { } w .keygen
  | 0x51 => checked { } w .sign
  | 0x52 => checked { } w .verify
  | 0x53 => checked { } w .ecdh
  | _ => .error .illegalOpcode

/-- What the decoder reads from an instruction whose bits are `w` (a command is one 64-bit word, so every bit
above the 64 given is none of it): the instruction, or none where decode fails. -/
def decodeTableWord (nbits w : Nat) : Option Instr :=
  match decode (BitVec.ofNat 64 (w % 2 ^ nbits)) with
  | .ok i => some i
  | .error _ => none

/-! ### Encoding -/

/-- `word = OP | RD<<8 | RA<<12 | RB<<16 | RC<<20 | M<<24 | ZR<<25 | IMM<<32` (R80), as a sum of disjoint
fields. -/
def assemble (op : Nat) (rd : Reg := 0) (ra : Reg := 0) (rb : Reg := 0) (rc : Reg := 0) (m : Nat := 0)
    (zr : Nat := 0) (imm : Imm := 0) : Word64 :=
  BitVec.ofNat 64 (op + rd.toNat * 2 ^ 8 + ra.toNat * 2 ^ 12 + rb.toNat * 2 ^ 16 + rc.toNat * 2 ^ 20 +
    m * 2 ^ 24 + zr * 2 ^ 25 + imm.toNat * 2 ^ 32)

/-- The M bit of a modulus (R84). -/
def modulusBit : Modulus → Nat
  | .p => 0
  | .n => 1

/-- The command word of an instruction (R80, R87). -/
def encode : Instr → Word64
  | .nop => assemble 0x00
  | .zeroize => assemble 0x01
  | .ldc rd imm => assemble 0x02 (rd := rd) (imm := imm)
  | .vset rd ra => assemble 0x08 (rd := rd) (ra := ra)
  | .viszero ra => assemble 0x09 (ra := ra)
  | .vtestbit ra imm => assemble 0x0A (ra := ra) (imm := imm)
  | .vnumbits rd ra => assemble 0x0B (rd := rd) (ra := ra)
  | .vcmp ra rb => assemble 0x0C (ra := ra) (rb := rb)
  | .vlshift1 rd ra => assemble 0x0D (rd := rd) (ra := ra)
  | .vrshift1 rd ra => assemble 0x0E (rd := rd) (ra := ra)
  | .vadd rd ra rb => assemble 0x0F (rd := rd) (ra := ra) (rb := rb)
  | .vsub rd ra rb => assemble 0x10 (rd := rd) (ra := ra) (rb := rb)
  | .vmul rd ra rb => assemble 0x11 (rd := rd) (ra := ra) (rb := rb)
  | .vsqr rd ra => assemble 0x12 (rd := rd) (ra := ra)
  | .modadd rd ra rb m => assemble 0x20 (rd := rd) (ra := ra) (rb := rb) (m := modulusBit m)
  | .modsub rd ra rb m => assemble 0x21 (rd := rd) (ra := ra) (rb := rb) (m := modulusBit m)
  | .modmul rd ra rb m => assemble 0x22 (rd := rd) (ra := ra) (rb := rb) (m := modulusBit m)
  | .modsqr rd ra m => assemble 0x23 (rd := rd) (ra := ra) (m := modulusBit m)
  | .redp rd ra => assemble 0x24 (rd := rd) (ra := ra)
  | .modinv rd ra m => assemble 0x25 (rd := rd) (ra := ra) (m := modulusBit m)
  | .modsqrt rd ra => assemble 0x26 (rd := rd) (ra := ra)
  | .jdbl rd => assemble 0x30 (rd := rd)
  | .applyz rd rc => assemble 0x31 (rd := rd) (rc := rc)
  | .cozadd ra rb => assemble 0x32 (ra := ra) (rb := rb)
  | .cozaddc ra rb => assemble 0x33 (ra := ra) (rb := rb)
  | .lstep ra imm => assemble 0x38 (ra := ra) (imm := imm)
  | .smul rd ra rb none => assemble 0x39 (rd := rd) (ra := ra) (rb := rb)
  | .smul rd ra rb (some rc) => assemble 0x39 (rd := rd) (ra := ra) (rb := rb) (rc := rc) (zr := 1)
  | .loadb rd imm => assemble 0x40 (rd := rd) (imm := imm)
  | .storeb ra imm => assemble 0x41 (ra := ra) (imm := imm)
  | .pcomp ra imm => assemble 0x42 (ra := ra) (imm := imm)
  | .pdecomp rd imm => assemble 0x43 (rd := rd) (imm := imm)
  | .keygen => assemble 0x50
  | .sign => assemble 0x51
  | .verify => assemble 0x52
  | .ecdh => assemble 0x53

end Sys2Proof
end

