-- ==== Sys2Proof/Machine/Ops.lean ====
section
/-! DEFINITION. The named operations over BUF and V, and the completion of a command: on success, and with an
error, which is what taking an exception is on this hardware (R252, R256), with the host's return from it (R257). -/

namespace Sys2Proof.Machine

/-! ### BUF -/

/-- The size of BUF in bytes (R56). -/
def bufSize : Nat := 512

/-- What a byte of BUF that is not listed reads as: its reset value (R56, R281; log entry 11). -/
def bufDefault : Byte := 0

/-- Every offset in the list is at least `lo`, the offsets rise strictly, and no entry holds the default. -/
def Memory.wfFrom : Nat → Memory → Bool
  | _, [] => true
  | lo, (a, b) :: rest => decide (lo ≤ a) && decide (a < bufSize) && (b != bufDefault) && Memory.wfFrom (a + 1) rest

/-- The canonical form of BUF: offsets strictly rising and inside BUF, no entry equal to the default. -/
def Memory.wf (m : Memory) : Bool := Memory.wfFrom 0 m

/-- The byte at an offset. -/
def Memory.read : Memory → Nat → Byte
  | [], _ => bufDefault
  | (a, b) :: rest, k => if k = a then b else if k < a then bufDefault else Memory.read rest k

/-- The list with the entry of offset `k` replaced by `b`, or removed where `b` is the default. -/
def Memory.insert (k : Nat) (b : Byte) : Memory → Memory
  | [] => if b = bufDefault then [] else [(k, b)]
  | (a, x) :: rest =>
    if k < a then (if b = bufDefault then (a, x) :: rest else (k, b) :: (a, x) :: rest)
    else if k = a then (if b = bufDefault then rest else (k, b) :: rest)
    else (a, x) :: Memory.insert k b rest

/-- Writing one byte of BUF. There is no byte outside BUF to write (log entry 12: decode and the bus map let no
access reach one). -/
def Memory.write (m : Memory) (k : Nat) (b : Byte) : Memory :=
  if k < bufSize then Memory.insert k b m else m

/-- `MemRead(off, k)`: the k-byte string at an offset (R15). -/
def Memory.readString (m : Memory) (off k : Nat) : List Byte :=
  (List.range k).map fun t => m.read (off + t)

/-- `MemWrite(off, k, s)`: the string `s` written from an offset on (R15). -/
def Memory.writeString (m : Memory) (off : Nat) : List Byte → Memory
  | [] => m
  | b :: rest => Memory.writeString (m.write off b) (off + 1) rest

/-- `be(s)`: the big-endian value of a byte string (R15). -/
def be (s : List Byte) : Nat := s.foldl (fun acc b => acc * 256 + b.toNat) 0

/-- The `k`-byte big-endian string of a value. -/
def beBytes (k v : Nat) : List Byte :=
  (List.range k).map fun t => BitVec.ofNat 8 (v / 256 ^ (k - 1 - t))

/-- `be48(v)`: the 48-byte big-endian string of a value (R15). -/
def be48 (v : Nat) : List Byte := beBytes 48 v

/-- The integer `be(MemRead(off, 48))` of BUF. -/
def State.bufInt (s : State) (off : Nat) : Nat := be (s.buf.readString off 48)

/-- BUF with a string written, as a pending write of the command (R36). -/
def State.writeBuf (s : State) (off : Nat) (str : List Byte) : State :=
  { s with buf := s.buf.writeString off str }

/-! ### V -/

/-- `V[i]` (R15, R20). -/
def State.readV (s : State) (i : Nat) : Vli := s.v[i]?.getD 0

/-- `V[i] <- x` (R15, R20). There is no register beyond V15 to write (log entry 12). -/
def State.writeV (s : State) (i : Nat) (x : Vli) : State :=
  { s with v := s.v.setIfInBounds i x }

/-! ### Completion (R35), errors (R252, R256), return (R257) -/

/-- STATUS.BUSY (R32, R35). -/
def State.busy (s : State) : Bool := s.phase == .busy

/-- The output irq, recomputed: the level DONE ∧ IEN (R38, R258). -/
def State.driveIrq (s : State) : State := { s with irq := s.done && s.ien }

/-- Completion (R35): ERR and DRAWS written, BUSY cleared, DONE set; the words taken are cleared with the other
temporaries (R37), ent_ready drops (R39) and irq is recomputed (R258). -/
def State.complete (s : State) (code : ErrCode) (count : Nat) : State :=
  State.driveIrq
    { s with
      err := code
      draws := BitVec.ofNat 64 count
      phase := .idle
      done := true
      entropy := []
      entReady := false }

/-- A command succeeds with its pending writes made in `s`, after `count` draws (R35, R36). -/
def succeed (count : Nat) (s : State) : Host.Outcome State Fault Refusal := .next (s.complete .ok count)

/-- `raise Error(code)` (R252): the command ends at once with nothing written, and completion reports the code
and the draws made so far. This is the taking of an exception on this hardware (R256). -/
def raise (code : ErrCode) (count : Nat) (s : State) : Host.Outcome State Fault Refusal :=
  .next (s.complete code count)

/-- The host's return from a completion: DONE and OVR are cleared as the written bits say, which drops irq with
DONE (R32, R257, R258). -/
def State.acknowledge (s : State) (clearDone clearOvr : Bool) : State :=
  State.driveIrq { s with done := s.done && !clearDone, ovr := s.ovr && !clearOvr }

/-- A command that needs an entropy word it has not been given: ent_ready is up and it stays BUSY (R39, R64). -/
def awaitEntropy (s : State) : Host.Outcome State Fault Refusal := .next { s with entReady := true }

/-- The error a decode failure reports (R89, R250). -/
def decodeErrCode : DecodeError → ErrCode
  | .illegalOpcode => .illegalOpcode
  | .illegalOperand => .illegalOperand

/-- The operand checks of R89 stand before a command's effect: a command term that fails them ends with
ILLEGAL_OPERAND, as its word would at decode (log entry 13). -/
def guarded (i : Instr) (s : State) (effect : Host.Outcome State Fault Refusal) :
    Host.Outcome State Fault Refusal :=
  if i.wellFormed then effect else raise .illegalOperand 0 s

/-! ### Reset (R280 to R283) -/

/-- Every piece of the machine's state at its reset value; the schedule, the reset input's level and what the host
has been handed are not the machine's, and stay (log entry 14). -/
def State.resetCore (s : State) : State :=
  { State.reset with rst := s.rst, rdata := s.rdata, reads := s.reads, env := s.env }

end Sys2Proof.Machine
end

