-- ==== Sys2Proof/Machine/Operands.lean ====
section
/-! DEFINITION. The operand forms of commands (R81, R86): single registers, pairs (768-bit products and points),
triples and quads, and the bit length of a value. -/

namespace Sys2Proof.Machine

/-- A source register read as an integer (R15). -/
def State.src (s : State) (r : Reg) : Nat := (s.readV r.toNat).toNat

/-- Register `k` of the group that starts at `r`, read as an integer (R81). -/
def State.srcAt (s : State) (r : Reg) (k : Nat) : Nat := (s.readV (r.toNat + k)).toNat

/-- The 768-bit value of a register pair, low half first (R20, R138). -/
def State.srcWide (s : State) (r : Reg) : Nat := s.srcAt r 1 * 2 ^ 384 + s.srcAt r 0

/-- A destination register written with an integer modulo 2^384. -/
def State.dst (s : State) (r : Reg) (x : Nat) : State := s.writeV r.toNat (BitVec.ofNat 384 x)

/-- Register `k` of a destination group written with an integer modulo 2^384 (R81). -/
def State.dstAt (s : State) (r : Reg) (k x : Nat) : State := s.writeV (r.toNat + k) (BitVec.ofNat 384 x)

/-- A 768-bit product written to a register pair, low half first (R110). -/
def State.dstWide (s : State) (r : Reg) (x : Nat) : State := (s.dstAt r 0 x).dstAt r 1 (x / 2 ^ 384)

/-- A point or co-ordinate pair written to a register pair (R20). -/
def State.dstPair (s : State) (r : Reg) (xy : Nat × Nat) : State := (s.dstAt r 0 xy.1).dstAt r 1 xy.2

/-- A Jacobian triple written to three registers (R20). -/
def State.dstTriple (s : State) (r : Reg) (xyz : Nat × Nat × Nat) : State :=
  ((s.dstAt r 0 xyz.1).dstAt r 1 xyz.2.1).dstAt r 2 xyz.2.2

/-- The bit length of a value: 0 for 0, else one more than the index of its highest set bit (R104). -/
def bitLength (v : Nat) : Nat := if v = 0 then 0 else v.log2 + 1

end Sys2Proof.Machine
end

