-- ==== Sys2Proof/Machine/Codec.lean ====
section
/-! DEFINITION. Constants, byte conversion and point encoding commands (44_codec.md). -/

namespace Sys2Proof.Machine

/-- LDC (R201). -/
def execLdc (rd : Reg) (imm : Imm) (s : State) : Host.Outcome State Fault Refusal :=
  guarded (.ldc rd imm) s (succeed 0 (s.dst rd (constantStore imm.toNat)))

/-- LOADB: 48 big-endian bytes of BUF to a register, with no range check (R202). -/
def execLoadb (rd : Reg) (imm : Imm) (s : State) : Host.Outcome State Fault Refusal :=
  guarded (.loadb rd imm) s (succeed 0 (s.dst rd (s.bufInt imm.toNat)))

/-- STOREB: a register to 48 big-endian bytes of BUF (R203). -/
def execStoreb (ra : Reg) (imm : Imm) (s : State) : Host.Outcome State Fault Refusal :=
  guarded (.storeb ra imm) s (succeed 0 (s.writeBuf imm.toNat (be48 (s.src ra))))

/-- PCOMP: the prefix of y and the 48 bytes of x, with no validation (R205). -/
def execPcomp (ra : Reg) (imm : Imm) (s : State) : Host.Outcome State Fault Refusal :=
  guarded (.pcomp ra imm) s
    (succeed 0 (s.writeBuf imm.toNat (parityPrefix (s.srcAt ra 1) :: be48 (s.srcAt ra 0))))

/-- `Decompress(MemRead(off, 49))` (R206, R207). -/
def State.decompressAt (s : State) (off : Nat) : Option (Nat × Nat) :=
  decompress (s.buf.read off).toNat (s.bufInt (off + 1))

/-- PDECOMP (R206). -/
def execPdecomp (rd : Reg) (imm : Imm) (s : State) : Host.Outcome State Fault Refusal :=
  guarded (.pdecomp rd imm) s
    (match s.decompressAt imm.toNat with
     | none => raise .malformed 0 s
     | some xy => succeed 0 (s.dstPair rd xy))

end Sys2Proof.Machine
end

