-- ==== Sys2Proof/Machine/Flags.lean ====
section
/-! DEFINITION. The five status flags: the values commands compute for them (R24 to R28) and their writes. -/

namespace Sys2Proof.Machine

/-- `FLAG.Z <- b` (R24). -/
def State.setZ (s : State) (b : Bool) : State := { s with z := b }

/-- `FLAG.C <- b` (R25). -/
def State.setC (s : State) (b : Bool) : State := { s with c := b }

/-- `FLAG.CMP <- x` (R26). -/
def State.setCmp (s : State) (x : BitVec 2) : State := { s with cmp := x }

/-- `FLAG.BIT <- b` (R27). -/
def State.setBit (s : State) (b : Bool) : State := { s with bit := b }

/-- `FLAG.VOK <- b` (R28). -/
def State.setVok (s : State) (b : Bool) : State := { s with vok := b }

/-- The zero test (R24, R102). -/
def zeroFlag (v : Nat) : Bool := v == 0

/-- The carry out of a 384-bit sum: its bit 384 (R25, R108). -/
def carryFlag (a b : Nat) : Bool := decide (2 ^ 384 ≤ a + b)

/-- The borrow of a difference (R25, R109). -/
def borrowFlag (a b : Nat) : Bool := decide (a < b)

/-- Bit `i` of a value (R14). -/
def bitFlag (v i : Nat) : Bool := v / 2 ^ i % 2 == 1

/-- CMP of two values: 01 greater, 00 equal, 11 less (R26, R105). -/
def cmpFlag (a b : Nat) : BitVec 2 := if b < a then 0b01 else if a = b then 0b00 else 0b11

/-- Every flag cleared (R241). -/
def State.clearFlags (s : State) : State :=
  { s with z := false, c := false, cmp := 0, bit := false, vok := false }

end Sys2Proof.Machine
end

