-- ==== Sys2Proof/Machine/Protocol.lean ====
section
/-! DEFINITION. The protocol commands (45_protocol.md) over the fixed areas of BUF (R59), and the draws they make
from the entropy words their run has taken (R63, R221). -/

namespace Sys2Proof.Machine

/-! ### The areas of BUF (R59) -/

/-- PUB: the 49-byte public key. -/
def pubOff : Nat := 0x000

/-- SECRET: the 48-byte secret scalar. -/
def secretOff : Nat := 0x040

/-- DIGEST: the 48-byte message digest. -/
def digestOff : Nat := 0x080

/-- SIG: r, 48 bytes. -/
def sigROff : Nat := 0x0C0

/-- SIG: s, 48 bytes. -/
def sigSOff : Nat := 0x0F0

/-- SHARED: the 48-byte ECDH shared secret. -/
def sharedOff : Nat := 0x140

/-! ### Draws (R63, R221, R222) -/

/-- The candidates `Draw()` returns, in order: each six consecutive entropy words, the first the most
significant (R63). A last group of fewer than six words is no candidate yet. -/
def candidates : List Word64 → List Nat
  | e0 :: e1 :: e2 :: e3 :: e4 :: e5 :: rest =>
    (e0.toNat * 2 ^ 320 + e1.toNat * 2 ^ 256 + e2.toNat * 2 ^ 192 + e3.toNat * 2 ^ 128 + e4.toNat * 2 ^ 64 +
      e5.toNat) :: candidates rest
  | _ => []

/-- How a sampling loop stands after the candidates taken so far. -/
inductive Sampled (α : Type) where
  /-- A candidate was kept, and how many were drawn. -/
  | kept (a : α) (count : Nat)
  /-- The budget ran out with this many drawn (RANDOM_EXHAUSTED). -/
  | exhausted (count : Nat)
  /-- Another candidate is needed. -/
  | waiting
deriving DecidableEq, Repr

/-- A sampling loop (R221): each turn fails if the count is MAX_DRAWS, else draws one candidate, counts it, and
keeps it or goes on. The loops of R222, of SIGN's retries and of ECDH's blinding share this one budget. -/
def sample {α : Type} (keep : Nat → Option α) : List Nat → Nat → Sampled α
  | [], count => if count = Config.maxDraws then .exhausted count else .waiting
  | c :: rest, count =>
    if count = Config.maxDraws then .exhausted count
    else match keep c with
      | some a => .kept a (count + 1)
      | none => sample keep rest (count + 1)

/-- A candidate that is a scalar in [1, n − 1] (R222). -/
def isScalar (c : Nat) : Bool := decide (1 ≤ c ∧ c ≤ groupOrder - 1)

/-- KEYGEN keeps a scalar whose public point is not O (R224). -/
def keygenKeep (c : Nat) : Option (Nat × Point) :=
  if isScalar c then
    let q := Point.mul c generator
    if q = .infinity then none else some (c, q)
  else none

/-- SIGN keeps a nonce whose r and s are both nonzero (R225). -/
def signKeep (d e k : Nat) : Option (Nat × Nat) :=
  if isScalar k then
    let r := (Point.mul k generator).x % groupOrder
    let s := (e + r * d) * binInv k groupOrder % groupOrder
    if r = 0 ∨ s = 0 then none else some (r, s)
  else none

/-- ECDH keeps a blinding value in [1, p − 1] (R233). -/
def blindKeep (c : Nat) : Option Nat := if 1 ≤ c ∧ c ≤ fieldPrime - 1 then some c else none

/-! ### Inputs -/

/-- The secret check (R223): `none` is MALFORMED. -/
def State.secret (s : State) : Option Nat :=
  let d := s.bufInt secretOff
  if d = 0 ∨ groupOrder ≤ d then none else some d

/-- How KEYGEN's sampling stands. -/
def State.keygenSample (s : State) : Sampled (Nat × Point) := sample keygenKeep (candidates s.entropy) 0

/-- How SIGN's sampling stands, for the secret `d`. -/
def State.signSample (s : State) (d : Nat) : Sampled (Nat × Nat) :=
  sample (signKeep d (s.bufInt digestOff)) (candidates s.entropy) 0

/-- How ECDH's sampling stands. -/
def State.blindSample (s : State) : Sampled Nat := sample blindKeep (candidates s.entropy) 0

/-! ### Commands -/

/-- What a drawing command does with its sampling: the kept value and count go on, an exhausted budget is
RANDOM_EXHAUSTED (R221), and a command that needs another word stays BUSY (R64). -/
def afterSampling {α : Type} (t : Sampled α) (s : State) (onKept : α → Nat → Host.Outcome State Fault Refusal) :
    Host.Outcome State Fault Refusal :=
  match t with
  | .kept a count => onKept a count
  | .exhausted count => raise .randomExhausted count s
  | .waiting => awaitEntropy s

/-- KEYGEN: SECRET and PUB of a fresh key pair (R224). -/
def execKeygen (s : State) : Host.Outcome State Fault Refusal :=
  afterSampling s.keygenSample s fun dq count =>
    succeed count
      ((s.writeBuf secretOff (be48 dq.1)).writeBuf pubOff (parityPrefix dq.2.y :: be48 dq.2.x))

/-- SIGN: r and s to SIG (R225). -/
def execSign (s : State) : Host.Outcome State Fault Refusal :=
  match s.secret with
  | none => raise .malformed 0 s
  | some d =>
    afterSampling (s.signSample d) s fun rs count =>
      succeed count ((s.writeBuf sigROff (be48 rs.1)).writeBuf sigSOff (be48 rs.2))

/-- The signature bounds of R229: r and s in [1, n − 1]. -/
def inBounds (r s : Nat) : Bool := isScalar r && isScalar s

/-- The verification equation (R230, R227): accept exactly if R = [u1]G + [u2]Q is not O and its x mod n is r. -/
def verifyEquation (q : Point) (e r s : Nat) : Bool :=
  let w := binInv s groupOrder
  let u1 := e * w % groupOrder
  let u2 := r * w % groupOrder
  match (Point.mul u1 generator).add (Point.mul u2 q) with
  | .infinity => false
  | .affine x _ => x % groupOrder == r

/-- VERIFY: VOK, in every outcome (R228 to R232). -/
def execVerify (s : State) : Host.Outcome State Fault Refusal :=
  match s.decompressAt pubOff with
  | none => raise .malformed 0 (s.setVok false)
  | some (x, y) =>
    let r := s.bufInt sigROff
    let t := s.bufInt sigSOff
    succeed 0 (s.setVok (inBounds r t && verifyEquation (.affine x y) (s.bufInt digestOff) r t))

/-- ECDH: the x-coordinate of [d]Q to SHARED (R233). The blinding value does not change the result (R234). -/
def execEcdh (s : State) : Host.Outcome State Fault Refusal :=
  match s.secret with
  | none => raise .malformed 0 s
  | some d =>
    match s.decompressAt pubOff with
    | none => raise .malformed 0 s
    | some (x, y) =>
      afterSampling s.blindSample s fun _ count =>
        match Point.mul d (.affine x y) with
        | .infinity => raise .infinity count s
        | .affine sx _ => succeed count (s.writeBuf sharedOff (be48 sx))

/-! ### ent_ready (R39, R62) -/

/-- The sampling loop needs another entropy word. -/
def Sampled.isWaiting {α : Type} : Sampled α → Bool
  | .waiting => true
  | _ => false

/-- The command in CMD needs an entropy word it has not taken (R62, R298). Only KEYGEN, SIGN and ECDH draw, and
SIGN and ECDH only after their input checks (R223, R234). -/
def State.needsWord (s : State) : Bool :=
  match decode s.cmd with
  | .ok .keygen => s.keygenSample.isWaiting
  | .ok .sign =>
    match s.secret with
    | none => false
    | some d => (s.signSample d).isWaiting
  | .ok .ecdh => s.secret.isSome && (s.decompressAt pubOff).isSome && s.blindSample.isWaiting
  | _ => false

/-- ent_ready recomputed: the command is BUSY and needs a word (R39). -/
def State.driveEntReady (s : State) : State := { s with entReady := s.busy && s.needsWord }

end Sys2Proof.Machine
end

