-- ==== Sys2Proof/Machine/Bus.lean ====
section
/-! DEFINITION. The host bus window (20_memory.md R50 to R58), the control and status registers (10_state.md R22,
R29 to R34), accesses while BUSY (R290, R291), and the acceptance of a command (R35). -/

namespace Sys2Proof.Machine

/-! ### Registers as the host sees them -/

/-- ID: the constant "P384ECC1" (R31). -/
def idWord : Word64 := 0x5033383445434331

/-- A Bool as a bit. -/
def bitNat (b : Bool) : Nat := if b then 1 else 0

/-- CTRL as it reads: IEN in bit 0, SRST reads 0, reserved bits read 0 (R29, R30). -/
def State.ctrlWord (s : State) : Word64 := BitVec.ofNat 64 (bitNat s.ien)

/-- The code of an error (R250). -/
def errCodeNat : ErrCode → Nat
  | .ok => 0x00
  | .illegalOpcode => 0x01
  | .illegalOperand => 0x02
  | .range => 0x03
  | .malformed => 0x04
  | .randomExhausted => 0x05
  | .infinity => 0x06

/-- STATUS as it reads (R32): BUSY 0, DONE 1, OVR 2, ERR 15:8, Z 16, C 17, CMP 19:18, BIT 20, VOK 21. -/
def State.statusWord (s : State) : Word64 :=
  BitVec.ofNat 64
    (bitNat s.busy + bitNat s.done * 2 ^ 1 + bitNat s.ovr * 2 ^ 2 + errCodeNat s.err * 2 ^ 8 + bitNat s.z * 2 ^ 16 +
      bitNat s.c * 2 ^ 17 + s.cmp.toNat * 2 ^ 18 + bitNat s.bit * 2 ^ 20 + bitNat s.vok * 2 ^ 21)

/-- Word `j` of a word-vector (R20). -/
def vliWord (x : Vli) (j : Nat) : Word64 := BitVec.ofNat 64 (slice x.toNat (64 * j + 63) (64 * j))

/-- A word-vector with word `j` replaced (R20, R53). -/
def vliSetWord (x : Vli) (j : Nat) (d : Word64) : Vli :=
  BitVec.ofNat 384
    (x.toNat % 2 ^ (64 * j) + d.toNat * 2 ^ (64 * j) + x.toNat / 2 ^ (64 * (j + 1)) * 2 ^ (64 * (j + 1)))

/-- The 8-byte datum of BUF[k..k+7]: BUF[k+t] on data bits 8t+7:8t (R57). -/
def State.bufWord (s : State) (k : Nat) : Word64 := BitVec.ofNat 64 (be (s.buf.readString k 8).reverse)

/-- The bytes of an 8-byte datum in lane order, lane 0 first (R57). -/
def laneBytes (d : Word64) : List Byte := (beBytes 8 d.toNat).reverse

/-! ### The address map -/

/-- What an access reaches (R51, R52). -/
inductive Target where
  | id
  | ctrl
  | status
  | cmd
  | draws
  /-- Word `j` of V[i]. -/
  | vWord (i j : Nat)
  /-- BUF[k..k+7]. -/
  | bufEight (k : Nat)
  /-- BUF[k]. -/
  | bufOne (k : Nat)
  /-- Nothing: the access is not performed (R52, R55). -/
  | nothing
deriving DecidableEq, Repr

/-- The address map (R51, R53, R56) with its alignment and width rules (R52). -/
def target (off : BitVec 12) (size : Nat) : Target :=
  let a := off.toNat
  if size = 8 ∧ a % 8 = 0 then
    if a = 0x000 then .id
    else if a = 0x008 then .ctrl
    else if a = 0x010 then .status
    else if a = 0x018 then .cmd
    else if a = 0x020 then .draws
    else if 0x100 ≤ a ∧ a ≤ 0x3FF then .vWord ((a - 0x100) / 48) ((a - 0x100) % 48 / 8)
    else if 0x400 ≤ a ∧ a ≤ 0x5FF then .bufEight (a - 0x400)
    else .nothing
  else if size = 1 ∧ 0x400 ≤ a ∧ a ≤ 0x5FF then .bufOne (a - 0x400)
  else .nothing

/-- The offset of a bus address inside the window at BASE, if it reaches the window (R50; log entry 7). -/
def windowOffset (addr : Nat) : Option (BitVec 12) :=
  if Config.base ≤ addr ∧ addr < Config.base + 4096 then some (BitVec.ofNat 12 (addr - Config.base)) else none

/-! ### Reads -/

/-- The value a read hands the host (log entry 5). -/
def State.returns (s : State) (d : Word64) : State := { s with rdata := d }

/-- An unspecified value of the given width handed to the host (R291; log entry 6). -/
def State.returnsUnspecified (s : State) (bytes : Nat) : State :=
  { s with rdata := BitVec.ofNat 64 ((Config.busyRead s.reads).toNat % 256 ^ bytes), reads := s.reads + 1 }

/-- A host read (R51 to R58): a value and no side effect (R65); V and BUF are unspecified while BUSY (R291). -/
def State.hostRead (s : State) (off : BitVec 12) (size : Nat) : State :=
  match target off size with
  | .id => s.returns idWord
  | .ctrl => s.returns s.ctrlWord
  | .status => s.returns s.statusWord
  | .cmd => s.returns s.cmd
  | .draws => s.returns s.draws
  | .vWord i j => if s.busy then s.returnsUnspecified 8 else s.returns (vliWord (s.readV i) j)
  | .bufEight k => if s.busy then s.returnsUnspecified 8 else s.returns (s.bufWord k)
  | .bufOne k =>
    if s.busy then s.returnsUnspecified 1 else s.returns (BitVec.ofNat 64 (s.buf.read k).toNat)
  | .nothing => s.returns 0

/-! ### Writes -/

/-- Acceptance of a command word (R33, R35): CMD takes it, BUSY is set, DONE and ERR are cleared, OVR and the flags
stay; no entropy word has been taken yet. irq drops with DONE (R257) and ent_ready follows (R39). -/
def State.accept (s : State) (w : Word64) : State :=
  State.driveEntReady (State.driveIrq { s with cmd := w, phase := .busy, done := false, err := .ok, entropy := [] })

/-- A host write that the core drops while BUSY (R33, R290). -/
def State.dropWrite (s : State) : State := { s with ovr := true }

/-- A CTRL write (R30, R282): SRST = 1 is a soft reset, busy or not; otherwise IEN is written. -/
def State.writeCtrl (s : State) (d : Word64) : State :=
  if slice d.toNat 1 1 = 1 then s.resetCore else State.driveIrq { s with ien := slice d.toNat 0 0 == 1 }

/-- A STATUS write: write 1 to clear DONE (bit 1) and OVR (bit 2), nothing else (R32). -/
def State.writeStatus (s : State) (d : Word64) : State :=
  s.acknowledge (slice d.toNat 1 1 == 1) (slice d.toNat 2 2 == 1)

/-- A host write (R51 to R58): read-only registers ignore it (R22), CTRL and STATUS take it busy or not, and CMD, V
and BUF drop it while BUSY (R290). -/
def State.hostWrite (s : State) (off : BitVec 12) (size : Nat) (d : Word64) : State :=
  match target off size with
  | .id => s
  | .ctrl => s.writeCtrl d
  | .status => s.writeStatus d
  | .cmd => if s.busy then s.dropWrite else s.accept d
  | .draws => s
  | .vWord i j => if s.busy then s.dropWrite else s.writeV i (vliSetWord (s.readV i) j d)
  | .bufEight k => if s.busy then s.dropWrite else s.writeBuf k (laneBytes d)
  | .bufOne k => if s.busy then s.dropWrite else s.writeBuf k [BitVec.ofNat 8 d.toNat]
  | .nothing => s

/-! ### Entropy and reset -/

/-- The entropy source presents a word: it transfers exactly if ent_ready = 1 (R62, R298). -/
def State.offerEntropy (s : State) (e : Word64) : State :=
  if s.entReady then State.driveEntReady { s with entropy := s.entropy ++ [e] } else s

/-- The reset input takes a level: while it is asserted and when it is released, every piece of state is at its
reset value (R280; log entry 4). -/
def State.setRst (s : State) (level : Bool) : State := { s.resetCore with rst := level }

end Sys2Proof.Machine
end

