-- ==== Sys2Proof/Machine/Field.lean ====
section
/-! DEFINITION. The field and scalar arithmetic commands (41_field.md). Each source that must be reduced is checked
before any arithmetic (R130); REDP takes any 768-bit value (R138). -/

namespace Sys2Proof.Machine

/-- A command whose source values must all be below `m`, else RANGE (R130, R160). -/
def reduced (m : Nat) (values : List Nat) (s : State) (effect : Host.Outcome State Fault Refusal) :
    Host.Outcome State Fault Refusal :=
  if values.all (fun x => decide (x < m)) then effect else raise .range 0 s

/-- MODADD (R131). -/
def execModadd (rd ra rb : Reg) (m : Modulus) (s : State) : Host.Outcome State Fault Refusal :=
  reduced (modulusValue m) [s.src ra, s.src rb] s
    (succeed 0 (s.dst rd (modAdd (modulusValue m) (s.src ra) (s.src rb))))

/-- MODSUB (R132). -/
def execModsub (rd ra rb : Reg) (m : Modulus) (s : State) : Host.Outcome State Fault Refusal :=
  reduced (modulusValue m) [s.src ra, s.src rb] s
    (succeed 0 (s.dst rd (modSub (modulusValue m) (s.src ra) (s.src rb))))

/-- MODMUL (R134). -/
def execModmul (rd ra rb : Reg) (m : Modulus) (s : State) : Host.Outcome State Fault Refusal :=
  reduced (modulusValue m) [s.src ra, s.src rb] s (succeed 0 (s.dst rd (modMul m (s.src ra) (s.src rb))))

/-- MODSQR (R136). -/
def execModsqr (rd ra : Reg) (m : Modulus) (s : State) : Host.Outcome State Fault Refusal :=
  reduced (modulusValue m) [s.src ra] s (succeed 0 (s.dst rd (modMul m (s.src ra) (s.src ra))))

/-- REDP: FastReduce of a 768-bit register pair, with no range check (R138). -/
def execRedp (rd ra : Reg) (s : State) : Host.Outcome State Fault Refusal :=
  guarded (.redp rd ra) s (succeed 0 (s.dst rd (fastReduce (s.srcWide ra))))

/-- MODINV (R140). -/
def execModinv (rd ra : Reg) (m : Modulus) (s : State) : Host.Outcome State Fault Refusal :=
  reduced (modulusValue m) [s.src ra] s (succeed 0 (s.dst rd (binInv (s.src ra) (modulusValue m))))

/-- MODSQRT: the exponentiation, with no residue check (R143). -/
def execModsqrt (rd ra : Reg) (s : State) : Host.Outcome State Fault Refusal :=
  reduced fieldPrime [s.src ra] s (succeed 0 (s.dst rd (sqrtCandidate (s.src ra))))

end Sys2Proof.Machine
end

