-- ==== Sys2Proof/Machine/Points.lean ====
section
/-! DEFINITION. The curve point commands (42_point.md) and the scalar multiplication commands (43_scalar_mult.md). -/

namespace Sys2Proof.Machine

/-- A register pair read as a co-ordinate pair (R20, R81). -/
def State.srcPair (s : State) (r : Reg) : Nat × Nat := (s.srcAt r 0, s.srcAt r 1)

/-- Registers `k` and `k + 1` of a group read as a co-ordinate pair (R181). -/
def State.srcPairAt (s : State) (r : Reg) (k : Nat) : Nat × Nat := (s.srcAt r k, s.srcAt r (k + 1))

/-- A co-ordinate pair written to registers `k` and `k + 1` of a group (R181). -/
def State.dstPairAt (s : State) (r : Reg) (k : Nat) (xy : Nat × Nat) : State :=
  (s.dstAt r k xy.1).dstAt r (k + 1) xy.2

/-- JDBL: doubling in place, no effect where Z = 0 (R161). -/
def execJdbl (rd : Reg) (s : State) : Host.Outcome State Fault Refusal :=
  guarded (.jdbl rd) s
    (reduced fieldPrime [s.srcAt rd 0, s.srcAt rd 1, s.srcAt rd 2] s
      (if s.srcAt rd 2 = 0 then succeed 0 s
       else succeed 0 (s.dstTriple rd (jacobianDouble (s.srcAt rd 0) (s.srcAt rd 1) (s.srcAt rd 2)))))

/-- APPLYZ (R163). -/
def execApplyz (rd rc : Reg) (s : State) : Host.Outcome State Fault Refusal :=
  guarded (.applyz rd rc) s
    (reduced fieldPrime [s.srcAt rd 0, s.srcAt rd 1, s.src rc] s
      (succeed 0 (s.dstPair rd (applyZ (s.srcAt rd 0) (s.srcAt rd 1) (s.src rc)))))

/-- COZADD: pair RA receives P at the new Z, pair RB receives P + Q (R165). -/
def execCozadd (ra rb : Reg) (s : State) : Host.Outcome State Fault Refusal :=
  guarded (.cozadd ra rb) s
    (reduced fieldPrime [s.srcAt ra 0, s.srcAt ra 1, s.srcAt rb 0, s.srcAt rb 1] s
      (let r := cozAdd (s.srcPair ra) (s.srcPair rb)
       succeed 0 ((s.dstPair ra r.1).dstPair rb r.2)))

/-- COZADDC: pair RA receives P − Q, pair RB receives P + Q (R167). -/
def execCozaddc (ra rb : Reg) (s : State) : Host.Outcome State Fault Refusal :=
  guarded (.cozaddc ra rb) s
    (reduced fieldPrime [s.srcAt ra 0, s.srcAt ra 1, s.srcAt rb 0, s.srcAt rb 1] s
      (let r := cozAddC (s.srcPair ra) (s.srcPair rb)
       succeed 0 ((s.dstPair ra r.1).dstPair rb r.2)))

/-- LSTEP: one ladder step on the quad (R0, R1) for the bit in IMM (R181). -/
def execLstep (ra : Reg) (imm : Imm) (s : State) : Host.Outcome State Fault Refusal :=
  guarded (.lstep ra imm) s
    (reduced fieldPrime [s.srcAt ra 0, s.srcAt ra 1, s.srcAt ra 2, s.srcAt ra 3] s
      (let r := ladderStep imm.toNat (s.srcPairAt ra 0) (s.srcPairAt ra 2)
       succeed 0 ((s.dstPairAt ra 0 r.1).dstPairAt ra 2 r.2)))

/-- The affine result of SMUL: `[k](x, y)`, with O written as (0, 0) (R184). -/
def smulResult (k x y : Nat) : Nat × Nat :=
  if (x = 0 ∧ y = 0) ∨ k = 0 then (0, 0) else (Point.mul k (.affine x y)).coords

/-- SMUL (R184): the co-ordinates must be reduced and, with ZR = 1, the initial Z must lie in [1, p − 1] (RANGE);
then the point must be O or on the curve (MALFORMED). The initial Z does not change the result (R188). -/
def execSmul (rd ra rb : Reg) (z : Option Reg) (s : State) : Host.Outcome State Fault Refusal :=
  let x := s.srcAt ra 0
  let y := s.srcAt ra 1
  let z0 := match z with
    | none => 1
    | some rc => s.src rc
  guarded (.smul rd ra rb z) s
    (reduced fieldPrime [x, y, z0] s
      (if z0 = 0 then raise .range 0 s
       else if ¬(x = 0 ∧ y = 0) ∧ ¬onCurve x y then raise .malformed 0 s
       else succeed 0 (s.dstPair rd (smulResult (s.src rb) x y))))

end Sys2Proof.Machine
end

