-- ==== Sys2Proof/Machine/System.lean ====
section
/-! DEFINITION. The system commands NOP and ZEROIZE (46_system.md). -/

namespace Sys2Proof.Machine

/-- NOP: no effect beyond completion (R240). -/
def execNop (s : State) : Host.Outcome State Fault Refusal := succeed 0 s

/-- ZEROIZE: every V register, every BUF byte and every flag cleared; IEN and OVR stay (R241). -/
def execZeroize (s : State) : Host.Outcome State Fault Refusal :=
  succeed 0 (State.clearFlags { s with v := Vector.replicate 16 0, buf := [] })

end Sys2Proof.Machine
end

