-- ==== Sys2Proof/Machine/Vli.lean ====
section
/-! DEFINITION. The word-vector commands (40_vli.md): exact integer arithmetic, narrowed to 384 bits where it is
written (R100, R112, R113). -/

namespace Sys2Proof.Machine

/-- VSET (R101). -/
def execVset (rd ra : Reg) (s : State) : Host.Outcome State Fault Refusal :=
  succeed 0 (s.dst rd (s.src ra))

/-- VISZERO: Z (R102). -/
def execViszero (ra : Reg) (s : State) : Host.Outcome State Fault Refusal :=
  succeed 0 (s.setZ (zeroFlag (s.src ra)))

/-- VTESTBIT: BIT (R103). -/
def execVtestbit (ra : Reg) (imm : Imm) (s : State) : Host.Outcome State Fault Refusal :=
  guarded (.vtestbit ra imm) s (succeed 0 (s.setBit (bitFlag (s.src ra) imm.toNat)))

/-- VNUMBITS (R104). -/
def execVnumbits (rd ra : Reg) (s : State) : Host.Outcome State Fault Refusal :=
  succeed 0 (s.dst rd (bitLength (s.src ra)))

/-- VCMP: CMP (R105). -/
def execVcmp (ra rb : Reg) (s : State) : Host.Outcome State Fault Refusal :=
  succeed 0 (s.setCmp (cmpFlag (s.src ra) (s.src rb)))

/-- VLSHIFT1: C is the bit shifted out of bit 383 (R106). -/
def execVlshift1 (rd ra : Reg) (s : State) : Host.Outcome State Fault Refusal :=
  succeed 0 ((s.dst rd (2 * s.src ra)).setC (bitFlag (s.src ra) 383))

/-- VRSHIFT1: C is the bit shifted out of bit 0 (R107). -/
def execVrshift1 (rd ra : Reg) (s : State) : Host.Outcome State Fault Refusal :=
  succeed 0 ((s.dst rd (s.src ra / 2)).setC (bitFlag (s.src ra) 0))

/-- VADD: C is the carry (R108). -/
def execVadd (rd ra rb : Reg) (s : State) : Host.Outcome State Fault Refusal :=
  succeed 0 ((s.dst rd (s.src ra + s.src rb)).setC (carryFlag (s.src ra) (s.src rb)))

/-- VSUB: the difference modulo 2^384, C the borrow (R109). -/
def execVsub (rd ra rb : Reg) (s : State) : Host.Outcome State Fault Refusal :=
  succeed 0 ((s.dst rd (s.src ra + 2 ^ 384 - s.src rb)).setC (borrowFlag (s.src ra) (s.src rb)))

/-- VMUL: the exact 768-bit product in a register pair (R110). -/
def execVmul (rd ra rb : Reg) (s : State) : Host.Outcome State Fault Refusal :=
  guarded (.vmul rd ra rb) s (succeed 0 (s.dstWide rd (s.src ra * s.src rb)))

/-- VSQR: the exact 768-bit square in a register pair (R111). -/
def execVsqr (rd ra : Reg) (s : State) : Host.Outcome State Fault Refusal :=
  guarded (.vsqr rd ra) s (succeed 0 (s.dstWide rd (s.src ra * s.src ra)))

end Sys2Proof.Machine
end

