-- ==== Sys2Proof/Machine/Dispatch.lean ====
section
/-! DEFINITION. The meaning of each command: one arm per constructor of Instr (R87). -/

namespace Sys2Proof.Machine

/-- The effect of a command on the state at acceptance, which is the state just before completion (R36, R298). -/
def exec (i : Instr) (s : State) : Host.Outcome State Fault Refusal :=
  match i with
  | .nop => Sys2Proof.Machine.execNop s
  | .zeroize => Sys2Proof.Machine.execZeroize s
  | .ldc rd imm => Sys2Proof.Machine.execLdc rd imm s
  | .vset rd ra => Sys2Proof.Machine.execVset rd ra s
  | .viszero ra => Sys2Proof.Machine.execViszero ra s
  | .vtestbit ra imm => Sys2Proof.Machine.execVtestbit ra imm s
  | .vnumbits rd ra => Sys2Proof.Machine.execVnumbits rd ra s
  | .vcmp ra rb => Sys2Proof.Machine.execVcmp ra rb s
  | .vlshift1 rd ra => Sys2Proof.Machine.execVlshift1 rd ra s
  | .vrshift1 rd ra => Sys2Proof.Machine.execVrshift1 rd ra s
  | .vadd rd ra rb => Sys2Proof.Machine.execVadd rd ra rb s
  | .vsub rd ra rb => Sys2Proof.Machine.execVsub rd ra rb s
  | .vmul rd ra rb => Sys2Proof.Machine.execVmul rd ra rb s
  | .vsqr rd ra => Sys2Proof.Machine.execVsqr rd ra s
  | .modadd rd ra rb m => Sys2Proof.Machine.execModadd rd ra rb m s
  | .modsub rd ra rb m => Sys2Proof.Machine.execModsub rd ra rb m s
  | .modmul rd ra rb m => Sys2Proof.Machine.execModmul rd ra rb m s
  | .modsqr rd ra m => Sys2Proof.Machine.execModsqr rd ra m s
  | .redp rd ra => Sys2Proof.Machine.execRedp rd ra s
  | .modinv rd ra m => Sys2Proof.Machine.execModinv rd ra m s
  | .modsqrt rd ra => Sys2Proof.Machine.execModsqrt rd ra s
  | .jdbl rd => Sys2Proof.Machine.execJdbl rd s
  | .applyz rd rc => Sys2Proof.Machine.execApplyz rd rc s
  | .cozadd ra rb => Sys2Proof.Machine.execCozadd ra rb s
  | .cozaddc ra rb => Sys2Proof.Machine.execCozaddc ra rb s
  | .lstep ra imm => Sys2Proof.Machine.execLstep ra imm s
  | .smul rd ra rb z => Sys2Proof.Machine.execSmul rd ra rb z s
  | .loadb rd imm => Sys2Proof.Machine.execLoadb rd imm s
  | .storeb ra imm => Sys2Proof.Machine.execStoreb ra imm s
  | .pcomp ra imm => Sys2Proof.Machine.execPcomp ra imm s
  | .pdecomp rd imm => Sys2Proof.Machine.execPdecomp rd imm s
  | .keygen => Sys2Proof.Machine.execKeygen s
  | .sign => Sys2Proof.Machine.execSign s
  | .verify => Sys2Proof.Machine.execVerify s
  | .ecdh => Sys2Proof.Machine.execEcdh s

end Sys2Proof.Machine
end

