-- ==== Sys2Proof/Machine/Events.lean ====
section
/-! DEFINITION. The events of the machine (R298): what each does to the state. `step` only takes the next one. -/

namespace Sys2Proof.Machine

/-- The core's turn. While BUSY it decodes CMD and runs the command, which completes, or stays BUSY where it needs
an entropy word (R298: Complete); a word that fails decode completes with its error (R89). While IDLE, and while the
reset input is asserted, it rests (R266, R280). -/
def coreTurn (s : State) : Host.Outcome State Fault Refusal :=
  if s.rst then .next s
  else
    match s.phase with
    | .idle => .next s
    | .busy =>
      match decode s.cmd with
      | .ok i => exec i s
      | .error e => raise (decodeErrCode e) 0 s

/-- One event of R298. While the reset input is asserted, no access, transfer or completion is performed (R280;
log entry 4). -/
def runEvent (e : Event) (s : State) : Host.Outcome State Fault Refusal :=
  match e with
  | .hostWrite off size data => .next (if s.rst then s else s.hostWrite off size data)
  | .hostRead off size => .next (if s.rst then s else s.hostRead off size)
  | .entropyWord w => .next (if s.rst then s else s.offerEntropy w)
  | .coreTurn => coreTurn s
  | .rst level => .next (s.setRst level)

/-- The next event of the schedule, taken off it; an empty schedule gives the core its turn (R295; log
entries 1, 2). -/
def takeEvent (s : State) : Host.Outcome State Fault Refusal :=
  match s.env with
  | [] => coreTurn s
  | e :: rest => runEvent e { s with env := rest }

/-- A command word in CMD, just accepted, and the core's turn next (log entry 17): `accept` is what the host's
write to CMD does (R35), with the reset input released. A schedule that is empty already gives the core its turn. -/
def State.placeCommand (s : State) (w : Word64) : State :=
  let t := { s with rst := false }.accept w
  { t with env := match s.env with
      | [] => []
      | e :: rest => .coreTurn :: e :: rest }

end Sys2Proof.Machine
end

