-- ==== Sys2Proof/Machine/Step.lean ====
section
/-! DEFINITION. One step of the machine, and the placing of a command word where the next step runs it. -/

namespace Sys2Proof.Machine

/-- Each step of the machine is exactly one event (R298): the next of the schedule. -/
def step (s : State) : Host.Outcome State Fault Refusal := takeEvent s

/-- The state with the command word `w` accepted, so that the very next step runs it (log entry 17). -/
def State.withFetchWord (s : State) (nbits w : Nat) : State := s.placeCommand (BitVec.ofNat 64 (w % 2 ^ nbits))

end Sys2Proof.Machine
end

