-- ==== Sys2Proof/Safety.lean ====
section
/-! DEFINITION. What the claims about this machine are stated in: the invariant every step keeps, what a completion
writes and what a command leaves alone, and the points that co-ordinates stand for. -/

namespace Sys2Proof.Machine

/-! ### The invariant -/

/-- irq is the level DONE ∧ IEN at all times (R38, R258). -/
def State.irqDriven (s : State) : Prop := s.irq = (s.done && s.ien)

/-- ent_ready is 1 exactly while a command is BUSY and needs an entropy word (R39). -/
def State.entReadyDriven (s : State) : Prop := s.entReady = (s.busy && s.needsWord)

/-- What holds of the state between events: BUF in canonical form, the outputs at their levels, DONE and ERR clear
while BUSY (R35), no entropy word held while IDLE (R37), CMP never `10` (R26), and DRAWS at most MAX_DRAWS (R34). -/
structure State.Consistent (s : State) : Prop where
  bufCanonical : s.buf.wf = true
  irqLevel : s.irqDriven
  entReadyLevel : s.entReadyDriven
  busyNotDone : s.phase = .busy → s.done = false ∧ s.err = .ok
  idleHoldsNoWord : s.phase = .idle → s.entropy = []
  cmpLegal : s.cmp ≠ 0b10
  drawsBounded : s.draws.toNat ≤ Config.maxDraws

/-! ### What a command changes and what it leaves -/

/-- `t` is `s` after a completion with this code and count (R35): everything that completion itself writes, and
everything besides V, BUF and the flags that no command writes. -/
structure State.CompletesTo (s t : State) (code : ErrCode) (count : Nat) : Prop where
  err : t.err = code
  draws : t.draws.toNat = count
  phase : t.phase = .idle
  done : t.done = true
  entropy : t.entropy = []
  entReady : t.entReady = false
  irq : t.irq = s.ien
  ien : t.ien = s.ien
  ovr : t.ovr = s.ovr
  cmd : t.cmd = s.cmd
  rst : t.rst = s.rst
  rdata : t.rdata = s.rdata
  reads : t.reads = s.reads
  env : t.env = s.env

/-- Every register of V not listed is unchanged. -/
def State.KeepsV (s t : State) (written : List Nat) : Prop :=
  ∀ j, j < 16 → j ∉ written → t.readV j = s.readV j

/-- Every byte of BUF reads as before. -/
def State.KeepsBuf (s t : State) : Prop := ∀ a, t.buf.read a = s.buf.read a

/-- Every byte of BUF outside the `len` bytes at `off` reads as before. -/
def State.KeepsBufOutside (s t : State) (off len : Nat) : Prop :=
  ∀ a, a < off ∨ off + len ≤ a → t.buf.read a = s.buf.read a

/-- Every flag is unchanged. -/
def State.KeepsFlags (s t : State) : Prop :=
  t.z = s.z ∧ t.c = s.c ∧ t.cmp = s.cmp ∧ t.bit = s.bit ∧ t.vok = s.vok

/-- V, BUF and the flags are unchanged: nothing is committed (R252). -/
def State.CommitsNothing (s t : State) : Prop := t.v = s.v ∧ t.buf = s.buf ∧ s.KeepsFlags t

/-- `t` is `s` after an error completion that commits nothing (R252). -/
def State.FailsTo (s t : State) (code : ErrCode) (count : Nat) : Prop :=
  s.CompletesTo t code count ∧ s.CommitsNothing t

/-- The five flags together (R23). -/
def State.flags (s : State) : Bool × Bool × BitVec 2 × Bool × Bool := (s.z, s.c, s.cmp, s.bit, s.vok)

/-- `t` is `s` after a success that drew nothing, changed no register of V outside `written` and no byte of BUF. What
the written registers and the flags hold is for the claim to say. -/
structure State.Succeeds (s t : State) (written : List Nat) : Prop where
  completes : s.CompletesTo t .ok 0
  registers : s.KeepsV t written
  buffer : s.KeepsBuf t

/-- Running `i` on `s` ends in an error completion that commits nothing, after `count` draws (R252). -/
def State.Fails (s : State) (i : Instr) (code : ErrCode) (count : Nat) : Prop :=
  ∃ t, exec i s = .next t ∧ s.FailsTo t code count

/-! ### The loops of the spec, as relations between where they start and where they end -/

/-- The fold loop of FastReduce (R133): from x, while the high half is not zero, to y. -/
inductive FoldsTo : Nat → Nat → Prop where
  | stop (x : Nat) : x / 2 ^ 384 = 0 → FoldsTo x x
  | turn (x y : Nat) : x / 2 ^ 384 ≠ 0 → FoldsTo (x % 2 ^ 384 + omega * (x / 2 ^ 384)) y → FoldsTo x y

/-- The subtraction loop of FastReduce (R133): from x, while it exceeds p, to y. -/
inductive SubtractsTo : Nat → Nat → Prop where
  | stop (x : Nat) : ¬fieldPrime < x → SubtractsTo x x
  | turn (x y : Nat) : fieldPrime < x → SubtractsTo (x - fieldPrime) y → SubtractsTo x y

/-- `r` is FastReduce(x) by the two loops of R133. -/
def ReducesTo (x r : Nat) : Prop := ∃ y, FoldsTo x y ∧ SubtractsTo y r

/-- The loop of BinInv mod m (R141): from (a, b, u, v), while a ≠ b, to the u it returns. -/
inductive InvertsTo (m : Nat) : Nat → Nat → Nat → Nat → Nat → Prop where
  | stop (a u v : Nat) : InvertsTo m a a u v u
  | aEven (a b u v r : Nat) : a ≠ b → a % 2 = 0 → InvertsTo m (a / 2) b (half m u) v r → InvertsTo m a b u v r
  | bEven (a b u v r : Nat) : a ≠ b → a % 2 = 1 → b % 2 = 0 → InvertsTo m a (b / 2) u (half m v) r →
      InvertsTo m a b u v r
  | aAbove (a b u v r : Nat) : a ≠ b → a % 2 = 1 → b % 2 = 1 → b < a →
      InvertsTo m ((a - b) / 2) b (half m (modSub m u v)) v r → InvertsTo m a b u v r
  | bAbove (a b u v r : Nat) : a ≠ b → a % 2 = 1 → b % 2 = 1 → a < b →
      InvertsTo m a ((b - a) / 2) u (half m (modSub m v u)) r → InvertsTo m a b u v r

/-! ### What the schedule does next -/

/-- The state once the next event of the schedule is taken off it. -/
def State.past (s : State) : State := { s with env := s.env.tail }

/-- The core has the next turn: it is scheduled, or nothing is. -/
def State.coreIsNext (s : State) : Prop := s.env = [] ∨ ∃ rest, s.env = .coreTurn :: rest

/-- The host writes next, with the reset input released (R50, R280). -/
def State.hostWrites (s : State) (off : BitVec 12) (size : Nat) (data : Word64) : Prop :=
  s.rst = false ∧ ∃ rest, s.env = .hostWrite off size data :: rest

/-- The host reads next, with the reset input released (R50, R280). -/
def State.hostReads (s : State) (off : BitVec 12) (size : Nat) : Prop :=
  s.rst = false ∧ ∃ rest, s.env = .hostRead off size :: rest

/-! ### The opcode map -/

/-- The opcode values of R87. -/
def opcodeMap : List Nat :=
  [0x00, 0x01, 0x02, 0x08, 0x09, 0x0A, 0x0B, 0x0C, 0x0D, 0x0E, 0x0F, 0x10, 0x11, 0x12, 0x20, 0x21, 0x22, 0x23, 0x24,
    0x25, 0x26, 0x30, 0x31, 0x32, 0x33, 0x38, 0x39, 0x40, 0x41, 0x42, 0x43, 0x50, 0x51, 0x52, 0x53]

/-- The commands that draw entropy (R224, R225, R233). -/
def drawsEntropy : Instr → Bool
  | .keygen => true
  | .sign => true
  | .ecdh => true
  | _ => false

/-! ### Artifacts -/

/-- The curve equation on integers: y² ≡ x³ − 3x + b (mod p) (R16). -/
def curveEquation (x y : Nat) : Prop :=
  y ^ 2 % fieldPrime = (x ^ 3 + (fieldPrime - 3) * x + curveB) % fieldPrime

/-- The 49 bytes of BUF at `off` are the prefix and x of the curve point (x, y), y chosen by the parity of the prefix
(R204, R207). For x³ − 3x + b ≡ 0 the root of odd parity is p. -/
structure State.HoldsPoint (s : State) (off x y : Nat) : Prop where
  pre : (s.buf.read off).toNat = 2 + y % 2
  xBytes : s.bufInt (off + 1) = x
  xReduced : x < fieldPrime
  yBound : y ≤ fieldPrime
  root : curveEquation x y

/-! ### Points -/

/-- The point a Jacobian triple stands for (R16): O where Z = 0, else (X/Z², Y/Z³). -/
def jacobianPoint (x y z : Nat) : Point :=
  if z = 0 then .infinity else .affine (fmul x (finv (fsqr z))) (fmul y (finv (fmul (fsqr z) z)))

/-- The negative of a point. -/
def Point.neg : Point → Point
  | .infinity => .infinity
  | .affine x y => .affine x (fsub 0 y)

/-- O, or a point with reduced co-ordinates on the curve (R16). -/
def Point.onE : Point → Prop
  | .infinity => True
  | .affine x y => x < fieldPrime ∧ y < fieldPrime ∧ onCurve x y = true

/-- The affine points whose co-ordinates a command reads as (x, y), with (0, 0) for O (R16). -/
def Point.ofCoords (x y : Nat) : Point := if x = 0 ∧ y = 0 then .infinity else .affine x y

/-- The k-fold sum of P, by adding P k times (R16). -/
def Point.repeated (P : Point) : Nat → Point
  | 0 => .infinity
  | k + 1 => (Point.repeated P k).add P

end Sys2Proof.Machine
end

