-- ==== Sys2Proof/Certificates/Slice0/Obligations.lean ====
section
/-! DEFINITION. The claims about this machine, each a proposition for the provers. The words they use are those of
Sys2Proof/Safety.lean. A claim about a step of the schedule is about `step`, a claim about a command about `exec`;
`StepRunsTheDecodedCommand` joins the two. -/

open Sys2Proof Sys2Proof.Machine

/-! ### Encoding and decode (30_encoding.md) -/

/-- Words written out in the spec decode to the commands the spec prints beside them (R92; the programs P1 to P4 of
95_test_vectors.md). -/
def Obligations.SpecWordsDecode : Prop :=
  decode 0x0000000001010222 = .ok (.modmul 2 0 1 .n) ∧
  decode 0x0000000000000050 = .ok .keygen ∧
  decode 0x0000000000000043 = .ok (.pdecomp 0 0) ∧
  decode 0x0000018000000042 = .ok (.pcomp 0 0x180) ∧
  decode 0x0000004000000240 = .ok (.loadb 2 0x040) ∧
  decode 0x000001C000002041 = .ok (.storeb 2 0x1C0) ∧
  decode 0x0000000500000002 = .ok (.ldc 0 5) ∧
  decode 0x0000000000020439 = .ok (.smul 4 0 2 none) ∧
  decode 0x000000000009800C = .ok (.vcmp 8 9)

/-- Every well-formed command is read back from its own word, with every operand at every value its encoding admits
(R80 to R89). -/
def Obligations.EncodedCommandsDecode : Prop := ∀ i : Instr, i.wellFormed = true → decode (encode i) = .ok i

/-- A word that decodes is the word of the command it decodes to, and that command passes the operand checks: no
nonzero bit of a word is dropped (R80, R88, R89). -/
def Obligations.AcceptedWordIsItsEncoding : Prop :=
  ∀ (w : Word64) (i : Instr), decode w = .ok i → encode i = w ∧ i.wellFormed = true

/-- The opcode values that R90 lists are illegal, and no others; and the only no-operation is NOP, an ordinary command
(R90). -/
def Obligations.UnknownOpcodesAreIllegal : Prop :=
  (∀ w : Word64, decode w = .error .illegalOpcode ↔
    ∃ lo hi, (lo, hi) ∈ [(0x03, 0x07), (0x13, 0x1F), (0x27, 0x2F), (0x34, 0x37), (0x3A, 0x3F), (0x44, 0x4F),
      (0x54, 0xFF)] ∧ lo ≤ w.toNat % 256 ∧ w.toNat % 256 ≤ hi) ∧
  (∀ s : State, s.rst = false → s.phase = .busy → s.coreIsNext → decode s.cmd = .error .illegalOpcode →
    ∃ t, step s = .next t ∧ s.past.FailsTo t .illegalOpcode 0) ∧
  (∀ s : State, ∃ t, exec .nop s = .next t ∧ s.Succeeds t [] ∧ t.flags = s.flags)

/-- A command word that fails decode ends the command with its error: no operand is read, nothing is committed and
DRAWS is 0 (R89, R34, R252). -/
def Obligations.FailedDecodeCommitsNothing : Prop :=
  ∀ (s : State) (e : DecodeError), s.rst = false → s.phase = .busy → s.coreIsNext → decode s.cmd = .error e →
    ∃ t, step s = .next t ∧
      s.past.FailsTo t (match e with | .illegalOpcode => .illegalOpcode | .illegalOperand => .illegalOperand) 0

/-- A command term outside the operand ranges of R81 to R83 has no word; running it ends with ILLEGAL_OPERAND all the
same. The model's choice (log entry 13). -/
def Obligations.IllFormedCommandsFail : Prop :=
  ∀ (i : Instr) (s : State), i.wellFormed = false → s.Fails i .illegalOperand 0

/-! ### The machine -/

/-- While BUSY, when the core has its turn, a step is the run of the command in CMD on the state whose schedule has
moved on (R298: Complete; the schedule is the model's, log entries 1 and 2). -/
def Obligations.StepRunsTheDecodedCommand : Prop :=
  ∀ (s : State) (i : Instr), s.rst = false → s.phase = .busy → s.coreIsNext → decode s.cmd = .ok i →
    step s = exec i s.past

/-- The reset value of every piece of state (R281). -/
def Obligations.ResetValues : Prop :=
  let s := State.reset
  (∀ j, j < 16 → s.readV j = 0) ∧ (∀ k, s.buf.read k = 0) ∧ s.ien = false ∧ s.phase = .idle ∧ s.busy = false ∧
  s.done = false ∧ s.ovr = false ∧ s.err = .ok ∧ s.flags = (false, false, 0, false, false) ∧ s.cmd = 0 ∧ s.draws = 0 ∧
  s.entropy = [] ∧ s.irq = false ∧ s.entReady = false ∧ s.ctrlWord = 0 ∧ s.statusWord = 0 ∧
  idWord = 0x5033383445434331 ∧ (List.range 8).map constantStore =
    [0, 1, fieldPrime, groupOrder, curveB, genX, genY, fieldPrime - 3]

/-- The invariant holds of the machine right after reset (R281). -/
def Obligations.ConsistentAtReset : Prop := State.reset.Consistent

/-- Every step keeps the invariant: BUF in canonical form (the model's own), irq = DONE ∧ IEN (R38), ent_ready exactly
while a BUSY command needs a word, DONE and ERR clear while BUSY (R35), no entropy word held while IDLE (R37), CMP never
10 (R26), DRAWS at most MAX_DRAWS (R34). R39 says that ent_ready is 1 only while a command waits; that it is 1
throughout, from acceptance on, is the model's reading of the events of R298 (log entry 20, DEDUCED). -/
def Obligations.StepKeepsConsistent : Prop :=
  ∀ s t : State, s.Consistent → step s = .next t → t.Consistent

/-- Every step ends in a next state: no access fails, no command stops the machine (R50, R252, R255). -/
def Obligations.EveryStepGivesANextState : Prop := ∀ s : State, ∃ t, step s = .next t

/-- While a command is BUSY and stays BUSY, no event changes V, BUF, the command word, the flags, ERR or DRAWS, and the
entropy words it has taken only grow (R36, R71, R290, R291). -/
def Obligations.OperandsStayWhileBusy : Prop :=
  ∀ s t : State, s.phase = .busy → step s = .next t → t.phase = .busy →
    t.v = s.v ∧ t.buf = s.buf ∧ t.cmd = s.cmd ∧ t.flags = s.flags ∧ t.err = s.err ∧ t.draws = s.draws ∧
    ∃ ws, t.entropy = s.entropy ++ ws

/-- A command that completes with an error writes no register of V, no byte of BUF and no flag but VERIFY's VOK, which
it clears; everything else is as completion leaves it (R252, R36, R28). -/
def Obligations.FailedCommandWritesNothing : Prop :=
  ∀ (i : Instr) (s t : State), s.phase = .busy → exec i s = .next t → t.phase = .idle → t.err ≠ .ok →
    s.CompletesTo t t.err t.draws.toNat ∧ t.v = s.v ∧ t.buf = s.buf ∧
    t.flags = (s.z, s.c, s.cmp, s.bit, if i = .verify then false else s.vok)

/-- Each flag is changed by its own commands and ZEROIZE alone; no command reads a flag: the flags a command starts
from change nothing of what it does besides the flags it leaves alone; and every flag is 0 at reset (R23). -/
def Obligations.FlagsHaveOnlyTheirWriters : Prop :=
  (∀ (i : Instr) (s t : State), exec i s = .next t →
    (t.z ≠ s.z → i = .zeroize ∨ ∃ ra, i = .viszero ra) ∧
    (t.c ≠ s.c → i = .zeroize ∨ (∃ rd ra rb, i = .vadd rd ra rb) ∨ (∃ rd ra rb, i = .vsub rd ra rb) ∨
      (∃ rd ra, i = .vlshift1 rd ra) ∨ ∃ rd ra, i = .vrshift1 rd ra) ∧
    (t.cmp ≠ s.cmp → i = .zeroize ∨ ∃ ra rb, i = .vcmp ra rb) ∧
    (t.bit ≠ s.bit → i = .zeroize ∨ ∃ ra imm, i = .vtestbit ra imm) ∧
    (t.vok ≠ s.vok → i = .zeroize ∨ i = .verify)) ∧
  (∀ (i : Instr) (s t : State) (z c bit vok : Bool) (cmp : BitVec 2), exec i s = .next t →
    ∃ u, exec i { s with z := z, c := c, cmp := cmp, bit := bit, vok := vok } = .next u ∧
      t = { u with z := t.z, c := t.c, cmp := t.cmp, bit := t.bit, vok := t.vok } ∧
      (t.z ≠ s.z → u.z = t.z) ∧ (t.c ≠ s.c → u.c = t.c) ∧ (t.cmp ≠ s.cmp → u.cmp = t.cmp) ∧
      (t.bit ≠ s.bit → u.bit = t.bit) ∧ (t.vok ≠ s.vok → u.vok = t.vok)) ∧
  State.reset.flags = (false, false, 0, false, false)

/-- A command that draws no entropy completes in one turn of the core, with DRAWS = 0 (R34, R295). -/
def Obligations.CommandsWithoutDrawsCompleteAtOnce : Prop :=
  ∀ (i : Instr) (s : State), drawsEntropy i = false →
    ∃ t, exec i s = .next t ∧ t.phase = .idle ∧ t.done = true ∧ t.draws = 0

/-- Given 6·1024 entropy words, every command completes, with at most 1024 draws (R295, R221; 1024 is the MAX_DRAWS of
R10, log entry 8). -/
def Obligations.EnoughEntropyEndsEveryCommand : Prop :=
  ∀ (i : Instr) (s : State), 6 * 1024 ≤ s.entropy.length →
    ∃ t, exec i s = .next t ∧ t.phase = .idle ∧ t.done = true ∧ t.draws.toNat ≤ 1024

/-- A drawing command whose candidates so far are all rejected, with fewer than 1024 of them, stays BUSY with ent_ready
raised and changes nothing else (R64). KEYGEN rejects 0, what is ≥ n, and a d with [d]G = O (R222, R224); SIGN 0, what
is ≥ n, and a nonce with r = 0 or s = 0 (R225); ECDH 0 and what is ≥ p (R233). That the turn of the core is then a step
that only raises ent_ready is the model's choice (log entries 2 and 20). -/
def Obligations.DrawingCommandsWaitForEntropy : Prop :=
  ∀ s : State, s.phase = .busy → (candidates s.entropy).length < 1024 →
    let d := s.bufInt 0x040
    let e := s.bufInt 0x080
    ((∀ c ∈ candidates s.entropy, c = 0 ∨ groupOrder ≤ c ∨ Point.mul c generator = .infinity) →
      exec .keygen s = .next { s with entReady := true }) ∧
    (1 ≤ d → d < groupOrder →
      ((∀ c ∈ candidates s.entropy, c = 0 ∨ groupOrder ≤ c ∨ (Point.mul c generator).x % groupOrder = 0 ∨
          (e + (Point.mul c generator).x % groupOrder * d) % groupOrder = 0) →
        exec .sign s = .next { s with entReady := true }) ∧
      (∀ x y, s.HoldsPoint 0x000 x y → (∀ c ∈ candidates s.entropy, c = 0 ∨ fieldPrime ≤ c) →
        exec .ecdh s = .next { s with entReady := true }))

/-! ### The host bus, the registers, entropy and reset -/

/-- A host write to CMD: accepted while IDLE, dropped with OVR set while BUSY; a read returns the last accepted word;
the reset value is 0, which spells NOP (R33; what acceptance sets and leaves is R35's). -/
def Obligations.CmdWriteIssuesACommand : Prop :=
  (∀ (s : State) (w : Word64), s.hostWrites 0x018 8 w → s.phase = .idle →
    ∃ t, step s = .next t ∧ t.cmd = w ∧ t.phase = .busy ∧ t.done = false ∧ t.err = .ok ∧ t.irq = false ∧
      t.entropy = [] ∧ t.ovr = s.ovr ∧ t.flags = s.flags ∧ t.v = s.v ∧ t.buf = s.buf ∧ t.ien = s.ien ∧
      t.draws = s.draws) ∧
  (∀ (s : State) (w : Word64), s.hostWrites 0x018 8 w → s.phase = .busy →
    step s = .next { s.past with ovr := true }) ∧
  (∀ s : State, s.hostReads 0x018 8 → step s = .next { s.past with rdata := s.cmd }) ∧
  State.reset.cmd = 0 ∧ decode 0 = .ok .nop

/-- While BUSY, a host write to V, BUF or CMD is dropped and sets OVR, and writes to CTRL (here of IEN) and STATUS take
effect (R290). -/
def Obligations.BusyHostWritesAreDropped : Prop :=
  (∀ (s : State) (off : BitVec 12) (size : Nat) (d : Word64), s.hostWrites off size d → s.phase = .busy →
    (size = 8 ∧ off.toNat % 8 = 0 ∧ 0x100 ≤ off.toNat ∧ off.toNat ≤ 0x5FF) ∨
      (size = 1 ∧ 0x400 ≤ off.toNat ∧ off.toNat ≤ 0x5FF) ∨ (size = 8 ∧ off = 0x018) →
    step s = .next { s.past with ovr := true }) ∧
  (∀ (s : State) (d : Word64), s.hostWrites 0x008 8 d → s.phase = .busy → d.getLsbD 1 = false →
    ∃ t, step s = .next t ∧ t.ien = d.getLsbD 0 ∧ t.phase = .busy) ∧
  (∀ (s : State) (d : Word64), s.hostWrites 0x010 8 d → s.phase = .busy →
    ∃ t, step s = .next t ∧ t.done = (s.done && !d.getLsbD 1) ∧ t.ovr = (s.ovr && !d.getLsbD 2) ∧ t.phase = .busy)

/-- CTRL: IEN reads back in bit 0 and every other bit reads 0; a write with SRST = 0 writes IEN at once and with it
irq, busy or not (R30, R38); a write with SRST = 1 puts every piece of state at its reset value, busy or not, whatever
bit 0 is (R282, R281). That the fields rst, rdata, reads and env stay is the model's choice: they are its own, and R281
does not list them (log entry 14, DESIGN CHOICE). -/
def Obligations.CtrlRegister : Prop :=
  (∀ s : State, s.hostReads 0x008 8 → step s = .next { s.past with rdata := if s.ien then 1 else 0 }) ∧
  (∀ (s : State) (d : Word64), s.hostWrites 0x008 8 d → d.getLsbD 1 = false →
    step s = .next { s.past with ien := d.getLsbD 0, irq := s.done && d.getLsbD 0 }) ∧
  (∀ (s : State) (d : Word64), s.hostWrites 0x008 8 d → d.getLsbD 1 = true →
    step s = .next { State.reset with rst := s.rst, rdata := s.rdata, reads := s.reads, env := s.env.tail }) ∧
  State.reset.ctrlWord = 0

/-- STATUS: each field reads in its place and the reserved bits read 0; a write clears DONE and OVR where bits 1 and 2
are 1, which drops irq with DONE, and changes nothing else (R32, R29, R258). -/
def Obligations.StatusRegister : Prop :=
  (∀ s : State, s.hostReads 0x010 8 → ∃ w : Word64, step s = .next { s.past with rdata := w } ∧
    w.getLsbD 0 = decide (s.phase = .busy) ∧ w.getLsbD 1 = s.done ∧ w.getLsbD 2 = s.ovr ∧ w.toNat / 2 ^ 3 % 2 ^ 5 = 0 ∧
    w.toNat / 2 ^ 8 % 2 ^ 8 = (match s.err with
      | .ok => 0 | .illegalOpcode => 1 | .illegalOperand => 2 | .range => 3 | .malformed => 4 | .randomExhausted => 5
      | .infinity => 6) ∧
    w.getLsbD 16 = s.z ∧ w.getLsbD 17 = s.c ∧ w.toNat / 2 ^ 18 % 2 ^ 2 = s.cmp.toNat ∧ w.getLsbD 20 = s.bit ∧
    w.getLsbD 21 = s.vok ∧ w.toNat < 2 ^ 22) ∧
  (∀ (s : State) (d : Word64), s.hostWrites 0x010 8 d →
    step s = .next { s.past with
      done := s.done && !d.getLsbD 1
      ovr := s.ovr && !d.getLsbD 2
      irq := s.done && !d.getLsbD 1 && s.ien })

/-- While IDLE, word j of V[i] is read and written at 0x100 + 48·i + 8·j: a read returns it, a write replaces it and
nothing else (R53). -/
def Obligations.OperandRegisterWords : Prop :=
  ∀ (s : State) (i j : Nat), i < 16 → j < 6 → s.phase = .idle →
    (s.hostReads (BitVec.ofNat 12 (0x100 + 48 * i + 8 * j)) 8 →
      ∃ w : Word64, step s = .next { s.past with rdata := w } ∧ w.toNat = (s.readV i).toNat / 2 ^ (64 * j) % 2 ^ 64) ∧
    (∀ d : Word64, s.hostWrites (BitVec.ofNat 12 (0x100 + 48 * i + 8 * j)) 8 d →
      ∃ t, step s = .next t ∧ t = { s.past with v := t.v } ∧ s.KeepsV t [i] ∧
        ∀ j', j' < 6 → (t.readV i).toNat / 2 ^ (64 * j') % 2 ^ 64 =
          if j' = j then d.toNat else (s.readV i).toNat / 2 ^ (64 * j') % 2 ^ 64)

/-- While IDLE, an 8-byte access at 0x400 + 8·q moves BUF[8q + t] on data bits 8t+7:8t, and a 1-byte access at
0x400 + k moves BUF[k] on data bits 7:0; the other bytes stay; every byte is 0 after reset (R57, R56). Nothing is said
of data bits 63:8 of a 1-byte read. -/
def Obligations.BufferLanes : Prop :=
  (∀ (s : State) (q : Nat), q < 64 → s.phase = .idle →
    (s.hostReads (BitVec.ofNat 12 (0x400 + 8 * q)) 8 →
      ∃ w : Word64, step s = .next { s.past with rdata := w } ∧
        ∀ t, t < 8 → w.toNat / 2 ^ (8 * t) % 2 ^ 8 = (s.buf.read (8 * q + t)).toNat) ∧
    (∀ d : Word64, s.buf.wf = true → s.hostWrites (BitVec.ofNat 12 (0x400 + 8 * q)) 8 d →
      ∃ u, step s = .next u ∧ u = { s.past with buf := u.buf } ∧ s.KeepsBufOutside u (8 * q) 8 ∧
        ∀ t, t < 8 → (u.buf.read (8 * q + t)).toNat = d.toNat / 2 ^ (8 * t) % 2 ^ 8)) ∧
  (∀ (s : State) (k : Nat), k < 512 → s.phase = .idle →
    (s.hostReads (BitVec.ofNat 12 (0x400 + k)) 1 →
      ∃ w : Word64, step s = .next { s.past with rdata := w } ∧ w.toNat % 2 ^ 8 = (s.buf.read k).toNat) ∧
    (∀ d : Word64, s.buf.wf = true → s.hostWrites (BitVec.ofNat 12 (0x400 + k)) 1 d →
      ∃ u, step s = .next u ∧ u = { s.past with buf := u.buf } ∧ s.KeepsBufOutside u k 1 ∧
        (u.buf.read k).toNat = d.toNat % 2 ^ 8)) ∧
  ∀ k, k < 512 → State.reset.buf.read k = 0

/-- An access outside the alignment and width rules, or at a reserved offset, is not performed: a write changes
nothing, a read returns 0 (R52, R55). -/
def Obligations.UnperformedAccesses : Prop :=
  ∀ (s : State) (off : BitVec 12) (size : Nat) (d : Word64),
    ¬(size = 8 ∧ off.toNat % 8 = 0 ∧ off.toNat < 0x028) →
    ¬(size = 8 ∧ off.toNat % 8 = 0 ∧ 0x100 ≤ off.toNat ∧ off.toNat < 0x600) →
    ¬(size = 1 ∧ 0x400 ≤ off.toNat ∧ off.toNat < 0x600) →
    (s.hostWrites off size d → step s = .next s.past) ∧
    (s.hostReads off size → step s = .next { s.past with rdata := 0 })

/-- A host read changes nothing of the machine, busy or not, at any offset: only the value handed over, and while BUSY
the count of unspecified values handed over, change (R65, R291; both are the model's own fields, log entries 5 and 6).
ID reads as the constant "P384ECC1" and DRAWS as held, busy or not, and writes to either are ignored (R31, R34, R22,
R54). -/
def Obligations.ReadsAndReadOnlyRegisters : Prop :=
  (∀ (s : State) (off : BitVec 12) (size : Nat), s.hostReads off size →
    ∃ t, step s = .next t ∧ t = { s.past with rdata := t.rdata, reads := t.reads } ∧
      (s.phase = .idle → t.reads = s.reads)) ∧
  (∀ s : State, s.hostReads 0x000 8 → step s = .next { s.past with rdata := 0x5033383445434331 }) ∧
  (∀ s : State, s.hostReads 0x020 8 → step s = .next { s.past with rdata := s.draws }) ∧
  (∀ (s : State) (d : Word64), s.hostWrites 0x000 8 d ∨ s.hostWrites 0x020 8 d → step s = .next s.past)

/-- Hard reset: when the input takes a level, asserted or released, every piece of state is at its reset value; while
it is asserted, no host access is performed; after release a CMD write is accepted (R280, R281). The rest is the
model's: that no entropy word transfers and no command completes while it is asserted, and that a host read then
leaves rdata as it is (log entry 4, DEDUCED and DESIGN CHOICE); that the reset leaves rdata, reads and env (log entry
14, DESIGN CHOICE); and that an empty schedule gives the core its turn (log entry 1, DESIGN CHOICE). -/
def Obligations.HardReset : Prop :=
  (∀ (s : State) (level : Bool) (rest : List Event), s.env = .rst level :: rest →
    step s = .next { State.reset with rst := level, rdata := s.rdata, reads := s.reads, env := rest }) ∧
  (∀ (s : State) (e : Event) (rest : List Event), s.rst = true → s.env = e :: rest → (∀ level, e ≠ .rst level) →
    step s = .next s.past) ∧
  (∀ s : State, s.rst = true → s.env = [] → step s = .next s) ∧
  (∀ (s : State) (w : Word64) (rest : List Event), s.env = .rst false :: .hostWrite 0x018 8 w :: rest →
    ∃ t u, step s = .next t ∧ t.phase = .idle ∧ step t = .next u ∧ u.phase = .busy ∧ u.cmd = w)

/-- An entropy word transfers exactly where ent_ready is 1: it joins the words the command has taken, and nothing else
but ent_ready changes; six words make one candidate, the first the most significant (R62, R63). -/
def Obligations.EntropyWordsMakeCandidates : Prop :=
  (∀ (s : State) (w : Word64) (rest : List Event), s.rst = false → s.env = .entropyWord w :: rest →
    (s.entReady = true → ∃ t, step s = .next t ∧ t.entropy = s.entropy ++ [w] ∧
      t = { s.past with entropy := t.entropy, entReady := t.entReady }) ∧
    (s.entReady = false → step s = .next s.past)) ∧
  (∀ (e0 e1 e2 e3 e4 e5 : Word64) (ws : List Word64),
    candidates (e0 :: e1 :: e2 :: e3 :: e4 :: e5 :: ws) =
      be (beBytes 8 e0.toNat ++ beBytes 8 e1.toNat ++ beBytes 8 e2.toNat ++ beBytes 8 e3.toNat ++
        beBytes 8 e4.toNat ++ beBytes 8 e5.toNat) :: candidates ws) ∧
  (∀ ws : List Word64, ws.length < 6 → candidates ws = [])

/-! ### System commands (46_system.md) -/

/-- NOP only completes; its word is 0, any other word with its opcode fails decode (R240, R88); CMD's reset value spells
it (R33), and reset does not run it (R280). The last clause, that with no event to come the machine rests after reset,
is about the model's empty schedule (log entry 1, DESIGN CHOICE). -/
def Obligations.NopOnlyCompletes : Prop :=
  decode 0 = .ok .nop ∧
  (∀ w : Word64, w.toNat % 256 = 0 → w ≠ 0 → decode w = .error .illegalOperand) ∧
  (∀ s : State, ∃ t, exec .nop s = .next t ∧ s.Succeeds t [] ∧ t.flags = s.flags) ∧
  decode State.reset.cmd = .ok .nop ∧ step State.reset = .next State.reset

/-- ZEROIZE clears every register of V, every byte of BUF and every flag, and leaves CTRL.IEN and STATUS.OVR (R241). -/
def Obligations.ZeroizeClearsStorage : Prop :=
  decode 1 = .ok .zeroize ∧
  (∀ w : Word64, w.toNat % 256 = 1 → w ≠ 1 → decode w = .error .illegalOperand) ∧
  (∀ s : State, ∃ t, exec .zeroize s = .next t ∧ s.CompletesTo t .ok 0 ∧ (∀ j, j < 16 → t.readV j = 0) ∧
    (∀ k, t.buf.read k = 0) ∧ t.flags = (false, false, 0, false, false))

/-! ### Word-vector commands (40_vli.md) -/

/-- VISZERO writes Z (R102), VTESTBIT BIT (R103), VCMP CMP (R105); no other flag, register or byte changes. That the
word by word comparison of VCMP is the comparison of the two integers is the spec's inference in R105. -/
def Obligations.TestsAndCompare : Prop :=
  (∀ (ra : Reg) (s : State),
    decode (assemble 0x09 (ra := ra)) = .ok (.viszero ra) ∧
    ∃ t, exec (.viszero ra) s = .next t ∧ s.Succeeds t [] ∧
      t.flags = (decide (s.src ra = 0), s.c, s.cmp, s.bit, s.vok)) ∧
  (∀ (ra : Reg) (imm : Imm) (s : State),
    decode (assemble 0x0A (ra := ra) (imm := imm)) =
      (if imm.toNat ≤ 383 then .ok (.vtestbit ra imm) else .error .illegalOperand) ∧
    (imm.toNat ≤ 383 → ∃ t, exec (.vtestbit ra imm) s = .next t ∧ s.Succeeds t [] ∧
      t.flags = (s.z, s.c, s.cmp, (s.readV ra.toNat).getLsbD imm.toNat, s.vok))) ∧
  (∀ (ra rb : Reg) (s : State),
    decode (assemble 0x0C (ra := ra) (rb := rb)) = .ok (.vcmp ra rb) ∧
    ∃ t, exec (.vcmp ra rb) s = .next t ∧ s.Succeeds t [] ∧ t.flags = (s.z, s.c, t.cmp, s.bit, s.vok) ∧
      (s.src ra = s.src rb → t.cmp = 0b00) ∧ (s.src rb < s.src ra → t.cmp = 0b01) ∧
      (s.src ra < s.src rb → t.cmp = 0b11))

/-- The word-vector commands of one source: VSET copies (R101); VNUMBITS writes the bit length, 0 for 0 (R104);
VLSHIFT1 and VRSHIFT1 shift by one bit and leave the bit shifted out in C (R106, R107). -/
def Obligations.CopyLengthAndShifts : Prop :=
  ∀ (rd ra : Reg) (s : State),
    (decode (assemble 0x08 (rd := rd) (ra := ra)) = .ok (.vset rd ra) ∧
      ∃ t, exec (.vset rd ra) s = .next t ∧ s.Succeeds t [rd.toNat] ∧ t.flags = s.flags ∧ t.src rd = s.src ra) ∧
    (decode (assemble 0x0B (rd := rd) (ra := ra)) = .ok (.vnumbits rd ra) ∧
      ∃ t, exec (.vnumbits rd ra) s = .next t ∧ s.Succeeds t [rd.toNat] ∧ t.flags = s.flags ∧
        s.src ra < 2 ^ t.src rd ∧ (t.src rd ≠ 0 → 2 ^ (t.src rd - 1) ≤ s.src ra)) ∧
    (decode (assemble 0x0D (rd := rd) (ra := ra)) = .ok (.vlshift1 rd ra) ∧
      ∃ t, exec (.vlshift1 rd ra) s = .next t ∧ s.Succeeds t [rd.toNat] ∧ t.src rd = 2 * s.src ra % 2 ^ 384 ∧
        t.flags = (s.z, (s.readV ra.toNat).getLsbD 383, s.cmp, s.bit, s.vok)) ∧
    (decode (assemble 0x0E (rd := rd) (ra := ra)) = .ok (.vrshift1 rd ra) ∧
      ∃ t, exec (.vrshift1 rd ra) s = .next t ∧ s.Succeeds t [rd.toNat] ∧ t.src rd = s.src ra / 2 ∧
        t.flags = (s.z, (s.readV ra.toNat).getLsbD 0, s.cmp, s.bit, s.vok))

/-- VADD and VSUB work modulo 2^384 and leave the carry or the borrow in C (R108, R109). -/
def Obligations.AddAndSubtract : Prop :=
  ∀ (rd ra rb : Reg) (s : State),
    (decode (assemble 0x0F (rd := rd) (ra := ra) (rb := rb)) = .ok (.vadd rd ra rb) ∧
      ∃ t, exec (.vadd rd ra rb) s = .next t ∧ s.Succeeds t [rd.toNat] ∧
        t.src rd = (s.src ra + s.src rb) % 2 ^ 384 ∧
        t.flags = (s.z, decide ((s.src ra + s.src rb) / 2 ^ 384 = 1), s.cmp, s.bit, s.vok)) ∧
    (decode (assemble 0x10 (rd := rd) (ra := ra) (rb := rb)) = .ok (.vsub rd ra rb) ∧
      ∃ t, exec (.vsub rd ra rb) s = .next t ∧ s.Succeeds t [rd.toNat] ∧
        (t.src rd : ℤ) = ((s.src ra : ℤ) - s.src rb) % 2 ^ 384 ∧
        t.flags = (s.z, decide (s.src ra < s.src rb), s.cmp, s.bit, s.vok))

/-- VMUL and VSQR write the exact 768-bit product to the pair RD, low half first; RD = 15 fails decode (R110, R111).
That VSQR is VMUL with both sources RA is the spec's inference in R111. -/
def Obligations.MultiplyAndSquare : Prop :=
  ∀ (rd ra rb : Reg) (s : State),
    (decode (assemble 0x11 (rd := rd) (ra := ra) (rb := rb)) =
      (if rd.toNat ≤ 14 then .ok (.vmul rd ra rb) else .error .illegalOperand) ∧
      (rd.toNat ≤ 14 → ∃ t, exec (.vmul rd ra rb) s = .next t ∧ s.Succeeds t [rd.toNat, rd.toNat + 1] ∧
        t.flags = s.flags ∧ t.srcAt rd 1 * 2 ^ 384 + t.srcAt rd 0 = s.src ra * s.src rb)) ∧
    (decode (assemble 0x12 (rd := rd) (ra := ra)) =
      (if rd.toNat ≤ 14 then .ok (.vsqr rd ra) else .error .illegalOperand) ∧
      (rd.toNat ≤ 14 → ∃ t, exec (.vsqr rd ra) s = .next t ∧ s.Succeeds t [rd.toNat, rd.toNat + 1] ∧
        t.flags = s.flags ∧ t.srcAt rd 1 * 2 ^ 384 + t.srcAt rd 0 = s.src ra * s.src ra))

/-! ### Field and scalar arithmetic (41_field.md) -/

/-- MODADD and MODSUB: the sum and the difference mod m of two reduced sources; a source that is not reduced is RANGE
(R130, R131, R132). -/
def Obligations.ModularAddAndSubtract : Prop :=
  ∀ (rd ra rb : Reg) (m : Modulus) (s : State),
    (decode (assemble 0x20 (rd := rd) (ra := ra) (rb := rb) (m := modulusBit m)) = .ok (.modadd rd ra rb m) ∧
      (modulusValue m ≤ s.src ra ∨ modulusValue m ≤ s.src rb → s.Fails (.modadd rd ra rb m) .range 0) ∧
      (s.src ra < modulusValue m → s.src rb < modulusValue m →
        ∃ t, exec (.modadd rd ra rb m) s = .next t ∧ s.Succeeds t [rd.toNat] ∧ t.flags = s.flags ∧
          t.src rd = (s.src ra + s.src rb) % modulusValue m)) ∧
    (decode (assemble 0x21 (rd := rd) (ra := ra) (rb := rb) (m := modulusBit m)) = .ok (.modsub rd ra rb m) ∧
      (modulusValue m ≤ s.src ra ∨ modulusValue m ≤ s.src rb → s.Fails (.modsub rd ra rb m) .range 0) ∧
      (s.src ra < modulusValue m → s.src rb < modulusValue m →
        ∃ t, exec (.modsub rd ra rb m) s = .next t ∧ s.Succeeds t [rd.toNat] ∧ t.flags = s.flags ∧
          (t.src rd : ℤ) = ((s.src ra : ℤ) - s.src rb) % modulusValue m))

/-- MODMUL and MODSQR: the canonical product mod m of reduced sources, for both moduli; a source that is not reduced is
RANGE (R130, R134 to R137). That the result mod p is canonical is the spec's inference in R135. -/
def Obligations.ModularMultiplyAndSquare : Prop :=
  ∀ (rd ra rb : Reg) (m : Modulus) (s : State),
    (decode (assemble 0x22 (rd := rd) (ra := ra) (rb := rb) (m := modulusBit m)) = .ok (.modmul rd ra rb m) ∧
      (modulusValue m ≤ s.src ra ∨ modulusValue m ≤ s.src rb → s.Fails (.modmul rd ra rb m) .range 0) ∧
      (s.src ra < modulusValue m → s.src rb < modulusValue m →
        ∃ t, exec (.modmul rd ra rb m) s = .next t ∧ s.Succeeds t [rd.toNat] ∧ t.flags = s.flags ∧
          t.src rd = s.src ra * s.src rb % modulusValue m)) ∧
    (decode (assemble 0x23 (rd := rd) (ra := ra) (m := modulusBit m)) = .ok (.modsqr rd ra m) ∧
      (modulusValue m ≤ s.src ra → s.Fails (.modsqr rd ra m) .range 0) ∧
      (s.src ra < modulusValue m →
        ∃ t, exec (.modsqr rd ra m) s = .next t ∧ s.Succeeds t [rd.toNat] ∧ t.flags = s.flags ∧
          t.src rd = s.src ra * s.src ra % modulusValue m))

/-- REDP: the value that the fold loop and the strict subtraction loop of FastReduce end at, for any 768-bit source,
with no range check; RA = 15 fails decode (R138, R133). -/
def Obligations.RedpRunsTheTwoLoops : Prop :=
  ∀ (rd ra : Reg) (s : State),
    decode (assemble 0x24 (rd := rd) (ra := ra)) =
      (if ra.toNat ≤ 14 then .ok (.redp rd ra) else .error .illegalOperand) ∧
    decode (assemble 0x24 (rd := rd) (ra := ra) (m := 1)) = .error .illegalOperand ∧
    (ra.toNat ≤ 14 → ∃ t, exec (.redp rd ra) s = .next t ∧ s.Succeeds t [rd.toNat] ∧ t.flags = s.flags ∧
      ReducesTo (s.srcAt ra 1 * 2 ^ 384 + s.srcAt ra 0) (t.src rd) ∧ t.src rd ≤ fieldPrime)

/-- The closed form of FastReduce: 0 for 0, p for a nonzero multiple of p, the residue otherwise; what the two loops
end at is unique, and every 768-bit value has such an end (R139). -/
def Obligations.FastReduceClosedForm : Prop :=
  (∀ x, x < 2 ^ 768 → ∃ r, ReducesTo x r) ∧
  (∀ x r, ReducesTo x r → r = if x = 0 then 0 else if x % fieldPrime = 0 then fieldPrime else x % fieldPrime)

/-- MODINV: the value the loop of BinInv ends at, 0 for 0, which is the inverse mod m for every other reduced source; a
source that is not reduced is RANGE (R130, R140, R141). That it is the inverse is the spec's inference in R140. -/
def Obligations.ModularInverse : Prop :=
  ∀ (rd ra : Reg) (m : Modulus) (s : State),
    decode (assemble 0x25 (rd := rd) (ra := ra) (m := modulusBit m)) = .ok (.modinv rd ra m) ∧
    (modulusValue m ≤ s.src ra → s.Fails (.modinv rd ra m) .range 0) ∧
    (s.src ra < modulusValue m →
      ∃ t, exec (.modinv rd ra m) s = .next t ∧ s.Succeeds t [rd.toNat] ∧ t.flags = s.flags ∧
        (s.src ra = 0 → t.src rd = 0) ∧
        (s.src ra ≠ 0 → InvertsTo (modulusValue m) (s.src ra) (modulusValue m) 1 0 (t.src rd) ∧
          t.src rd < modulusValue m ∧ s.src ra * t.src rd % modulusValue m = 1))

/-- MODSQRT: a^((p+1)/4) mod p, whose square is a for a residue a and −a for a non-residue; a source that is not
reduced is RANGE; M must be 0 (R143, R130). -/
def Obligations.ModularSquareRoot : Prop :=
  ∀ (rd ra : Reg) (s : State),
    decode (assemble 0x26 (rd := rd) (ra := ra)) = .ok (.modsqrt rd ra) ∧
    decode (assemble 0x26 (rd := rd) (ra := ra) (m := 1)) = .error .illegalOperand ∧
    (fieldPrime ≤ s.src ra → s.Fails (.modsqrt rd ra) .range 0) ∧
    (s.src ra < fieldPrime →
      ∃ t, exec (.modsqrt rd ra) s = .next t ∧ s.Succeeds t [rd.toNat] ∧ t.flags = s.flags ∧
        t.src rd = s.src ra ^ ((fieldPrime + 1) / 4) % fieldPrime ∧
        ((∃ y, y ^ 2 % fieldPrime = s.src ra) → t.src rd ^ 2 % fieldPrime = s.src ra) ∧
        ((¬∃ y, y ^ 2 % fieldPrime = s.src ra) → (t.src rd ^ 2 + s.src ra) % fieldPrime = 0))

/-! ### Point commands (42_point.md, 43_scalar_mult.md) -/

/-- JDBL: the doubling formulas of R161 in F_p, in place; nothing changes where Z = 0; a co-ordinate that is not
reduced is RANGE; RD above 13 fails decode (R161). -/
def Obligations.JdblRunsTheFormulas : Prop :=
  ∀ (rd : Reg) (s : State),
    let X := s.srcAt rd 0
    let Y := s.srcAt rd 1
    let Z := s.srcAt rd 2
    decode (assemble 0x30 (rd := rd)) = (if rd.toNat ≤ 13 then .ok (.jdbl rd) else .error .illegalOperand) ∧
    (rd.toNat ≤ 13 →
      (fieldPrime ≤ X ∨ fieldPrime ≤ Y ∨ fieldPrime ≤ Z → s.Fails (.jdbl rd) .range 0) ∧
      (X < fieldPrime → Y < fieldPrime → Z < fieldPrime →
        (Z = 0 → ∃ t, exec (.jdbl rd) s = .next t ∧ s.Succeeds t [] ∧ t.flags = s.flags) ∧
        (Z ≠ 0 → ∃ t, exec (.jdbl rd) s = .next t ∧ s.Succeeds t [rd.toNat, rd.toNat + 1, rd.toNat + 2] ∧
          t.flags = s.flags ∧ t.srcAt rd 0 < fieldPrime ∧ t.srcAt rd 1 < fieldPrime ∧ t.srcAt rd 2 < fieldPrime ∧
          ∃ A B : ZMod fieldPrime, A = X * Y ^ 2 ∧ 2 * B = 3 * (X - Z ^ 2) * (X + Z ^ 2) ∧
            (t.srcAt rd 0 : ZMod fieldPrime) = B ^ 2 - 2 * A ∧
            (t.srcAt rd 1 : ZMod fieldPrime) = B * (A - t.srcAt rd 0) - Y ^ 4 ∧
            (t.srcAt rd 2 : ZMod fieldPrime) = Y * Z)))

/-- APPLYZ: (X·Z², Y·Z³) in F_p, Z read before any write; a co-ordinate that is not reduced is RANGE; RD = 15 fails
decode (R163). -/
def Obligations.ApplyzMultipliesInZ : Prop :=
  ∀ (rd rc : Reg) (s : State),
    let X := s.srcAt rd 0
    let Y := s.srcAt rd 1
    let Z := s.src rc
    decode (assemble 0x31 (rd := rd) (rc := rc)) =
      (if rd.toNat ≤ 14 then .ok (.applyz rd rc) else .error .illegalOperand) ∧
    (rd.toNat ≤ 14 →
      (fieldPrime ≤ X ∨ fieldPrime ≤ Y ∨ fieldPrime ≤ Z → s.Fails (.applyz rd rc) .range 0) ∧
      (X < fieldPrime → Y < fieldPrime → Z < fieldPrime →
        ∃ t, exec (.applyz rd rc) s = .next t ∧ s.Succeeds t [rd.toNat, rd.toNat + 1] ∧ t.flags = s.flags ∧
          t.srcAt rd 0 = X * Z ^ 2 % fieldPrime ∧ t.srcAt rd 1 = Y * Z ^ 3 % fieldPrime))

/-- COZADD and COZADDC: the formulas of R165 and R167 in F_p; a co-ordinate that is not reduced is RANGE; a pair past
V15 or pairs that overlap fail decode (R165, R167). -/
def Obligations.CozCommandsRunTheFormulas : Prop :=
  ∀ (ra rb : Reg) (s : State),
    let x1 := s.srcAt ra 0
    let y1 := s.srcAt ra 1
    let x2 := s.srcAt rb 0
    let y2 := s.srcAt rb 1
    let legal := ra.toNat ≤ 14 ∧ rb.toNat ≤ 14 ∧ (ra.toNat + 2 ≤ rb.toNat ∨ rb.toNat + 2 ≤ ra.toNat)
    let written := [ra.toNat, ra.toNat + 1, rb.toNat, rb.toNat + 1]
    let A : ZMod fieldPrime := (x2 - x1) ^ 2
    let B : ZMod fieldPrime := x1 * A
    let C : ZMod fieldPrime := x2 * A
    decode (assemble 0x32 (ra := ra) (rb := rb)) = (if legal then .ok (.cozadd ra rb) else .error .illegalOperand) ∧
    decode (assemble 0x33 (ra := ra) (rb := rb)) = (if legal then .ok (.cozaddc ra rb) else .error .illegalOperand) ∧
    (legal →
      (fieldPrime ≤ x1 ∨ fieldPrime ≤ y1 ∨ fieldPrime ≤ x2 ∨ fieldPrime ≤ y2 →
        s.Fails (.cozadd ra rb) .range 0 ∧ s.Fails (.cozaddc ra rb) .range 0) ∧
      (x1 < fieldPrime → y1 < fieldPrime → x2 < fieldPrime → y2 < fieldPrime →
        (∃ t, exec (.cozadd ra rb) s = .next t ∧ s.Succeeds t written ∧ t.flags = s.flags ∧
          (∀ k, k < 2 → t.srcAt ra k < fieldPrime ∧ t.srcAt rb k < fieldPrime) ∧
          (t.srcAt ra 0 : ZMod fieldPrime) = B ∧ (t.srcAt ra 1 : ZMod fieldPrime) = y1 * (C - B) ∧
          (t.srcAt rb 0 : ZMod fieldPrime) = (y2 - y1) ^ 2 - B - C ∧
          (t.srcAt rb 1 : ZMod fieldPrime) = (y2 - y1) * (B - t.srcAt rb 0) - y1 * (C - B)) ∧
        (∃ t, exec (.cozaddc ra rb) s = .next t ∧ s.Succeeds t written ∧ t.flags = s.flags ∧
          (∀ k, k < 2 → t.srcAt ra k < fieldPrime ∧ t.srcAt rb k < fieldPrime) ∧
          (t.srcAt ra 0 : ZMod fieldPrime) = (y2 + y1) ^ 2 - (B + C) ∧
          (t.srcAt ra 1 : ZMod fieldPrime) = (y2 + y1) * (t.srcAt ra 0 - B) - y1 * (C - B) ∧
          (t.srcAt rb 0 : ZMod fieldPrime) = (y2 - y1) ^ 2 - (B + C) ∧
          (t.srcAt rb 1 : ZMod fieldPrime) = (y2 - y1) * (B - t.srcAt rb 0) - y1 * (C - B))))

/-- LSTEP: one CozAddC on (R[b], R[1−b]), then one CozAdd on (R[1−b], R[b]), on the quad RA in place; a co-ordinate
that is not reduced is RANGE; RA above 12 or IMM above 1 fails decode (R181). -/
def Obligations.LstepIsTwoCozOperations : Prop :=
  ∀ (ra : Reg) (imm : Imm) (s : State),
    let R0 := (s.srcAt ra 0, s.srcAt ra 1)
    let R1 := (s.srcAt ra 2, s.srcAt ra 3)
    let legal := ra.toNat ≤ 12 ∧ imm.toNat ≤ 1
    decode (assemble 0x38 (ra := ra) (imm := imm)) = (if legal then .ok (.lstep ra imm) else .error .illegalOperand) ∧
    (legal →
      ((∃ k, k < 4 ∧ fieldPrime ≤ s.srcAt ra k) → s.Fails (.lstep ra imm) .range 0) ∧
      ((∀ k, k < 4 → s.srcAt ra k < fieldPrime) →
        ∃ t, exec (.lstep ra imm) s = .next t ∧
          s.Succeeds t [ra.toNat, ra.toNat + 1, ra.toNat + 2, ra.toNat + 3] ∧ t.flags = s.flags ∧
          (imm = 0 →
            let first := cozAddC R0 R1
            let second := cozAdd first.2 first.1
            (t.srcAt ra 0, t.srcAt ra 1) = second.2 ∧ (t.srcAt ra 2, t.srcAt ra 3) = second.1) ∧
          (imm = 1 →
            let first := cozAddC R1 R0
            let second := cozAdd first.2 first.1
            (t.srcAt ra 0, t.srcAt ra 1) = second.1 ∧ (t.srcAt ra 2, t.srcAt ra 3) = second.2)))

/-- SMUL: the k-fold sum of the point in pair RA, for any 384-bit k, in affine form with O as (0, 0), the same with and
without an initial Z; RANGE for a co-ordinate or Z that is not reduced or a Z of 0; MALFORMED off the curve; RC without
ZR, or a pair past V15, fails decode (R184). -/
def Obligations.SmulIsTheGroupMultiple : Prop :=
  (∀ rd ra rb rc : Reg, rc ≠ 0 →
    decode (assemble 0x39 (rd := rd) (ra := ra) (rb := rb) (rc := rc)) = .error .illegalOperand) ∧
  ∀ (rd ra rb : Reg) (z : Option Reg) (s : State),
    let x := s.srcAt ra 0
    let y := s.srcAt ra 1
    let z0 := match z with | none => 1 | some rc => s.src rc
    let word := match z with
      | none => assemble 0x39 (rd := rd) (ra := ra) (rb := rb)
      | some rc => assemble 0x39 (rd := rd) (ra := ra) (rb := rb) (rc := rc) (zr := 1)
    let legal := rd.toNat ≤ 14 ∧ ra.toNat ≤ 14
    decode word = (if legal then .ok (.smul rd ra rb z) else .error .illegalOperand) ∧
    (legal →
      (fieldPrime ≤ x ∨ fieldPrime ≤ y ∨ z0 = 0 ∨ fieldPrime ≤ z0 → s.Fails (.smul rd ra rb z) .range 0) ∧
      (x < fieldPrime → y < fieldPrime → z0 ≠ 0 → z0 < fieldPrime →
        (¬(x = 0 ∧ y = 0) → ¬curveEquation x y → s.Fails (.smul rd ra rb z) .malformed 0) ∧
        ((x = 0 ∧ y = 0) ∨ curveEquation x y →
          ∃ t, exec (.smul rd ra rb z) s = .next t ∧ s.Succeeds t [rd.toNat, rd.toNat + 1] ∧ t.flags = s.flags ∧
            (t.srcAt rd 0, t.srcAt rd 1) = ((Point.ofCoords x y).repeated (s.src rb)).coords)))

/-! ### Constants and byte strings (44_codec.md) -/

/-- LDC writes entry IMM of the constant store; IMM above 7 fails decode (R201, R200, with the values of R12). -/
def Obligations.LdcWritesTheConstant : Prop :=
  ∀ (rd : Reg) (imm : Imm) (s : State),
    decode (assemble 0x02 (rd := rd) (imm := imm)) =
      (if imm.toNat ≤ 7 then .ok (.ldc rd imm) else .error .illegalOperand) ∧
    (imm.toNat ≤ 7 → ∃ t, exec (.ldc rd imm) s = .next t ∧ s.Succeeds t [rd.toNat] ∧ t.flags = s.flags ∧
      [0, 1, 2 ^ 384 - 2 ^ 128 - 2 ^ 96 + 2 ^ 32 - 1,
        0xFFFFFFFFFFFFFFFFFFFFFFFFFFFFFFFFFFFFFFFFFFFFFFFFC7634D81F4372DDF581A0DB248B0A77AECEC196ACCC52973,
        0xB3312FA7E23EE7E4988E056BE3F82D19181D9C6EFE8141120314088F5013875AC656398D8A2ED19D2A85C8EDD3EC2AEF,
        0xAA87CA22BE8B05378EB1C71EF320AD746E1D3B628BA79B9859F741E082542A385502F25DBF55296C3A545E3872760AB7,
        0x3617DE4A96262C6F5D9E98BF9292DC29F8F41DBD289A147CE9DA3113B5F0B8C00A60B1CE1D7E819D7A431D7C90EA0E5F,
        2 ^ 384 - 2 ^ 128 - 2 ^ 96 + 2 ^ 32 - 4][imm.toNat]? = some (t.src rd))

/-- LOADB reads and STOREB writes the 48-byte big-endian string of a register at BUF[off], most significant byte
first, at any alignment; an offset above 464 fails decode (R202, R203). -/
def Obligations.LoadAndStoreBytes : Prop :=
  (∀ (rd : Reg) (imm : Imm) (s : State),
    decode (assemble 0x40 (rd := rd) (imm := imm)) =
      (if imm.toNat ≤ 464 then .ok (.loadb rd imm) else .error .illegalOperand) ∧
    (imm.toNat ≤ 464 → ∃ t, exec (.loadb rd imm) s = .next t ∧ s.Succeeds t [rd.toNat] ∧ t.flags = s.flags ∧
      ∀ k, k < 48 → t.src rd / 2 ^ (8 * (47 - k)) % 2 ^ 8 = (s.buf.read (imm.toNat + k)).toNat)) ∧
  (∀ (ra : Reg) (imm : Imm) (s : State),
    decode (assemble 0x41 (ra := ra) (imm := imm)) =
      (if imm.toNat ≤ 464 then .ok (.storeb ra imm) else .error .illegalOperand) ∧
    (imm.toNat ≤ 464 → s.buf.wf = true → ∃ t, exec (.storeb ra imm) s = .next t ∧ s.CompletesTo t .ok 0 ∧
      s.KeepsV t [] ∧ t.flags = s.flags ∧ s.KeepsBufOutside t imm.toNat 48 ∧
      ∀ k, k < 48 → (t.buf.read (imm.toNat + k)).toNat = s.src ra / 2 ^ (8 * (47 - k)) % 2 ^ 8))

/-- PCOMP writes the prefix 0x02 + (y mod 2), then the 48 big-endian bytes of x, with no check of the point; RA = 15 or
an offset above 463 fails decode (R205, R204). -/
def Obligations.PcompWritesPrefixAndX : Prop :=
  ∀ (ra : Reg) (imm : Imm) (s : State),
    let legal := ra.toNat ≤ 14 ∧ imm.toNat ≤ 463
    decode (assemble 0x42 (ra := ra) (imm := imm)) = (if legal then .ok (.pcomp ra imm) else .error .illegalOperand) ∧
    (legal → s.buf.wf = true → ∃ t, exec (.pcomp ra imm) s = .next t ∧ s.CompletesTo t .ok 0 ∧ s.KeepsV t [] ∧
      t.flags = s.flags ∧ s.KeepsBufOutside t imm.toNat 49 ∧
      (t.buf.read imm.toNat).toNat = 0x02 + s.srcAt ra 1 % 2 ∧
      ∀ k, k < 48 → (t.buf.read (imm.toNat + 1 + k)).toNat = s.srcAt ra 0 / 2 ^ (8 * (47 - k)) % 2 ^ 8)

/-- PDECOMP writes the curve point whose compressed form stands at BUF[off]; where no curve point has that form it
fails with MALFORMED; RD = 15 or an offset above 463 fails decode (R206, R207). That the checks of R207 accept exactly
the strings of curve points is Euler's criterion, not the spec's words. -/
def Obligations.PdecompReadsTheCurvePoint : Prop :=
  ∀ (rd : Reg) (imm : Imm) (s : State),
    let legal := rd.toNat ≤ 14 ∧ imm.toNat ≤ 463
    decode (assemble 0x43 (rd := rd) (imm := imm)) = (if legal then .ok (.pdecomp rd imm) else .error .illegalOperand) ∧
    (legal →
      ((¬∃ x y, s.HoldsPoint imm.toNat x y) → s.Fails (.pdecomp rd imm) .malformed 0) ∧
      (∀ x y, s.HoldsPoint imm.toNat x y →
        ∃ t, exec (.pdecomp rd imm) s = .next t ∧ s.Succeeds t [rd.toNat, rd.toNat + 1] ∧ t.flags = s.flags ∧
          t.srcAt rd 0 = x ∧ t.srcAt rd 1 = y))

/-- The round trips of R208: PCOMP then PDECOMP gives a reduced curve point back; PDECOMP then PCOMP writes back the
string it accepted; LOADB then STOREB leaves BUF as it was; STOREB then LOADB gives the value back. -/
def Obligations.ByteRoundTrips : Prop :=
  (∀ (ra rd : Reg) (imm : Imm) (s : State), ra.toNat ≤ 14 → rd.toNat ≤ 14 → imm.toNat ≤ 463 → s.buf.wf = true →
    s.srcAt ra 0 < fieldPrime → s.srcAt ra 1 < fieldPrime → curveEquation (s.srcAt ra 0) (s.srcAt ra 1) →
    ∃ t u, exec (.pcomp ra imm) s = .next t ∧ exec (.pdecomp rd imm) t = .next u ∧ u.err = .ok ∧
      u.srcAt rd 0 = s.srcAt ra 0 ∧ u.srcAt rd 1 = s.srcAt ra 1) ∧
  (∀ (rd : Reg) (imm : Imm) (s : State) (x y : Nat), rd.toNat ≤ 14 → imm.toNat ≤ 463 → s.buf.wf = true →
    s.HoldsPoint imm.toNat x y →
    ∃ t u, exec (.pdecomp rd imm) s = .next t ∧ exec (.pcomp rd imm) t = .next u ∧ u.err = .ok ∧ u.buf = s.buf) ∧
  (∀ (rd : Reg) (imm : Imm) (s : State), imm.toNat ≤ 464 → s.buf.wf = true →
    ∃ t u, exec (.loadb rd imm) s = .next t ∧ exec (.storeb rd imm) t = .next u ∧ u.err = .ok ∧ u.buf = s.buf) ∧
  (∀ (ra rd : Reg) (imm : Imm) (s : State), imm.toNat ≤ 464 → s.buf.wf = true →
    ∃ t u, exec (.storeb ra imm) s = .next t ∧ exec (.loadb rd imm) t = .next u ∧ u.err = .ok ∧
      u.src rd = s.src ra)

/-! ### Protocol commands (45_protocol.md). `[k]P` is `Point.mul k P` here; that it is the k-fold sum is
`MulIsRepeatedAddition`. -/

/-- KEYGEN keeps the first candidate d in [1, n − 1]: SECRET receives d, PUB the compressed [d]G, DRAWS the candidates
drawn; after 1024 rejected candidates it fails with RANDOM_EXHAUSTED (R224, R221). That [d]G is never O for such a d,
so that the retry on O never takes place, is the spec's inference in R224 from R13. -/
def Obligations.KeygenWritesAKeyPair : Prop :=
  decode 0x50 = .ok .keygen ∧
  ∀ (s : State) (pre post : List Nat),
    (∀ c ∈ pre, c = 0 ∨ groupOrder ≤ c ∨ Point.mul c generator = .infinity) →
    (∀ d, candidates s.entropy = pre ++ d :: post → pre.length < 1024 → s.buf.wf = true →
      1 ≤ d → d ≤ groupOrder - 1 →
      ∃ t x y, Point.mul d generator = .affine x y ∧ exec .keygen s = .next t ∧ s.CompletesTo t .ok (pre.length + 1) ∧
        s.KeepsV t [] ∧ t.flags = s.flags ∧ t.bufInt 0x040 = d ∧ (t.buf.read 0x000).toNat = 0x02 + y % 2 ∧
        t.bufInt 0x001 = x ∧
        ∀ a, (a < 0x000 ∨ 0x031 ≤ a) → (a < 0x040 ∨ 0x070 ≤ a) → t.buf.read a = s.buf.read a) ∧
    (candidates s.entropy = pre ++ post → pre.length = 1024 → s.Fails .keygen .randomExhausted 1024)

/-- SIGN: a secret outside [1, n − 1] is MALFORMED before any draw; otherwise the first nonce k in [1, n − 1] that
gives r = x([k]G) mod n and s = (e + r·d)/k mod n both nonzero is used, SIG receives r then s, and DRAWS the candidates
drawn; after 1024 rejected candidates it fails with RANDOM_EXHAUSTED (R225). -/
def Obligations.SignWritesTheSignature : Prop :=
  decode 0x51 = .ok .sign ∧
  ∀ s : State,
    let d := s.bufInt 0x040
    let e := s.bufInt 0x080
    (d = 0 ∨ groupOrder ≤ d → s.Fails .sign .malformed 0) ∧
    (1 ≤ d → d < groupOrder → ∀ pre post : List Nat,
      (∀ c ∈ pre, c = 0 ∨ groupOrder ≤ c ∨ (Point.mul c generator).x % groupOrder = 0 ∨
        (e + (Point.mul c generator).x % groupOrder * d) % groupOrder = 0) →
      (∀ k x y r sg, candidates s.entropy = pre ++ k :: post → pre.length < 1024 → s.buf.wf = true →
        1 ≤ k → k ≤ groupOrder - 1 → Point.mul k generator = .affine x y → r = x % groupOrder → r ≠ 0 →
        sg < groupOrder → sg ≠ 0 → sg * k % groupOrder = (e + r * d) % groupOrder →
        ∃ t, exec .sign s = .next t ∧ s.CompletesTo t .ok (pre.length + 1) ∧ s.KeepsV t [] ∧ t.flags = s.flags ∧
          t.bufInt 0x0C0 = r ∧ t.bufInt 0x0F0 = sg ∧ s.KeepsBufOutside t 0x0C0 96) ∧
      (candidates s.entropy = pre ++ post → pre.length = 1024 → s.Fails .sign .randomExhausted 1024))

/-- VERIFY: a public key that is no compressed curve point ends with MALFORMED and VOK = 0; otherwise it completes with
no error, writes VOK alone, and accepts exactly if r and s lie in [1, n − 1] and R = [e/s]G + [r/s]Q is a point with
x mod n = r (R228 to R232). -/
def Obligations.VerifyDecidesTheSignature : Prop :=
  decode 0x52 = .ok .verify ∧
  ∀ s : State,
    let e := s.bufInt 0x080
    let r := s.bufInt 0x0C0
    let sg := s.bufInt 0x0F0
    ((¬∃ x y, s.HoldsPoint 0x000 x y) → ∃ t, exec .verify s = .next t ∧ s.CompletesTo t .malformed 0 ∧
      s.KeepsV t [] ∧ s.KeepsBuf t ∧ t.flags = (s.z, s.c, s.cmp, s.bit, false)) ∧
    (∀ x y, s.HoldsPoint 0x000 x y → ∃ t, exec .verify s = .next t ∧ s.Succeeds t [] ∧
      t.flags = (s.z, s.c, s.cmp, s.bit, t.vok) ∧
      (t.vok = true ↔ 1 ≤ r ∧ r < groupOrder ∧ 1 ≤ sg ∧ sg < groupOrder ∧
        ∃ w x' y', sg * w % groupOrder = 1 ∧
          (Point.mul (e * w % groupOrder) generator).add (Point.mul (r * w % groupOrder) (.affine x y)) =
            .affine x' y' ∧ x' % groupOrder = r))

/-- ECDH: a secret outside [1, n − 1], then a public key that is no compressed curve point, is MALFORMED before any
draw; otherwise a blinding value in [1, p − 1] is drawn, SHARED receives the x-coordinate of [d]Q whatever that value
is, and DRAWS the candidates drawn; after 1024 rejected candidates it fails with RANDOM_EXHAUSTED (R233, R221). That
[d]Q is never O, so that no input that passes the checks ends with INFINITY, is the spec's inference in R234 from the
prime order of the group (R13). -/
def Obligations.EcdhWritesTheSharedSecret : Prop :=
  decode 0x53 = .ok .ecdh ∧
  ∀ s : State,
    let d := s.bufInt 0x040
    (d = 0 ∨ groupOrder ≤ d → s.Fails .ecdh .malformed 0) ∧
    ((¬∃ x y, s.HoldsPoint 0x000 x y) → s.Fails .ecdh .malformed 0) ∧
    (1 ≤ d → d < groupOrder → ∀ x y, s.HoldsPoint 0x000 x y → ∀ pre post : List Nat,
      (∀ c ∈ pre, c = 0 ∨ fieldPrime ≤ c) →
      (∀ z0, candidates s.entropy = pre ++ z0 :: post → pre.length < 1024 → 1 ≤ z0 → z0 ≤ fieldPrime - 1 →
        s.buf.wf = true →
        ∃ t sx sy, Point.mul d (.affine x y) = .affine sx sy ∧ exec .ecdh s = .next t ∧
          s.CompletesTo t .ok (pre.length + 1) ∧ s.KeepsV t [] ∧ t.flags = s.flags ∧ t.bufInt 0x140 = sx ∧
          s.KeepsBufOutside t 0x140 48) ∧
      (candidates s.entropy = pre ++ post → pre.length = 1024 → s.Fails .ecdh .randomExhausted 1024))

/-! ### What the point and protocol commands mean -/

/-- The group law of E: it stays on the curve, is commutative and associative, has O as identity and (x, −y) as the
inverse of (x, y); and G is on the curve, with [n]G = O (R16, R12). -/
def Obligations.PointAddIsAGroupLaw : Prop :=
  (∀ P Q : Point, P.onE → Q.onE → (P.add Q).onE ∧ P.neg.onE ∧ P.add Q = Q.add P ∧ P.add P.neg = .infinity ∧
    P.add .infinity = P) ∧
  (∀ P Q R : Point, P.onE → Q.onE → R.onE → (P.add Q).add R = P.add (Q.add R)) ∧
  generator.onE ∧ Point.mul groupOrder generator = .infinity

/-- [k]P as the commands compute it is the k-fold sum of P, for every 384-bit k and every point of E (R16). -/
def Obligations.MulIsRepeatedAddition : Prop :=
  ∀ (P : Point) (k : Nat), P.onE → k < 2 ^ 384 → Point.mul k P = P.repeated k

/-- JDBL doubles the point its triple stands for: a reduced triple that represents P is replaced by one that represents P + P
(R162; O for Z = 0). -/
def Obligations.JdblDoublesThePoint : Prop :=
  ∀ (rd : Reg) (s t : State), rd.toNat ≤ 13 → s.srcAt rd 0 < fieldPrime → s.srcAt rd 1 < fieldPrime →
    s.srcAt rd 2 < fieldPrime → exec (.jdbl rd) s = .next t →
    let P := jacobianPoint (s.srcAt rd 0) (s.srcAt rd 1) (s.srcAt rd 2)
    jacobianPoint (t.srcAt rd 0) (t.srcAt rd 1) (t.srcAt rd 2) = P.add P

/-- COZADD and COZADDC add co-Z points: for pairs that represent P and Q at one Z ≠ 0 with x1 ≠ x2, the new common Z is
Z·(x2 − x1), and there COZADD leaves P and P + Q, COZADDC P − Q and P + Q (R166, R168). -/
def Obligations.CozCommandsAddThePoints : Prop :=
  ∀ (ra rb : Reg) (s : State) (Z : Nat), Instr.wellFormed (.cozadd ra rb) = true →
    (∀ k, k < 2 → s.srcAt ra k < fieldPrime ∧ s.srcAt rb k < fieldPrime) → Z < fieldPrime → Z ≠ 0 →
    s.srcAt ra 0 ≠ s.srcAt rb 0 →
    let P := jacobianPoint (s.srcAt ra 0) (s.srcAt ra 1) Z
    let Q := jacobianPoint (s.srcAt rb 0) (s.srcAt rb 1) Z
    let Z3 := fmul Z (fsub (s.srcAt rb 0) (s.srcAt ra 0))
    (∃ t, exec (.cozadd ra rb) s = .next t ∧ jacobianPoint (t.srcAt ra 0) (t.srcAt ra 1) Z3 = P ∧
      jacobianPoint (t.srcAt rb 0) (t.srcAt rb 1) Z3 = P.add Q) ∧
    (∃ t, exec (.cozaddc ra rb) s = .next t ∧ jacobianPoint (t.srcAt ra 0) (t.srcAt ra 1) Z3 = P.add Q.neg ∧
      jacobianPoint (t.srcAt rb 0) (t.srcAt rb 1) Z3 = P.add Q)

/-- One LSTEP advances the ladder: from (S0, S1) on the curve at one Z, bit 0 gives ([2]S0, S0 + S1) and bit 1
(S0 + S1, [2]S1) at one new Z, where neither co-Z operation meets equal x-coordinates (R182). -/
def Obligations.LadderStepAdvances : Prop :=
  ∀ (ra : Reg) (imm : Imm) (s : State) (Z : Nat), ra.toNat ≤ 12 → imm.toNat ≤ 1 →
    (∀ k, k < 4 → s.srcAt ra k < fieldPrime) → Z < fieldPrime → Z ≠ 0 →
    let S0 := jacobianPoint (s.srcAt ra 0) (s.srcAt ra 1) Z
    let S1 := jacobianPoint (s.srcAt ra 2) (s.srcAt ra 3) Z
    let D := if imm = 0 then S0.add S1.neg else S1.add S0.neg
    S0.onE → S1.onE → S0 ≠ S1 → S0 ≠ S1.neg → S0.add S1 ≠ D → S0.add S1 ≠ D.neg →
    ∃ t Z', exec (.lstep ra imm) s = .next t ∧ Z' < fieldPrime ∧ Z' ≠ 0 ∧
      jacobianPoint (t.srcAt ra 0) (t.srcAt ra 1) Z' = (if imm = 0 then S0.add S0 else S0.add S1) ∧
      jacobianPoint (t.srcAt ra 2) (t.srcAt ra 3) Z' = (if imm = 0 then S0.add S1 else S1.add S1)

/-- Soundness of signing: where PUB is the public key of SECRET, a SIGN that completes with no error is accepted by the
next VERIFY of the same digest (R235). -/
def Obligations.SignThenVerifyAccepts : Prop :=
  ∀ (s t : State) (x y : Nat), s.buf.wf = true → s.phase = .busy →
    Point.mul (s.bufInt 0x040) generator = .affine x y → s.HoldsPoint 0x000 x y →
    exec .sign s = .next t → t.phase = .idle → t.err = .ok →
    ∃ u, exec .verify t = .next u ∧ u.err = .ok ∧ u.vok = true

/-- Agreement: two parties whose SECRETs are dA and dB and who hold each other's public keys in PUB write the same
SHARED (R235). -/
def Obligations.EcdhAgrees : Prop :=
  ∀ (a b a' b' : State) (xA yA xB yB : Nat), a.buf.wf = true → b.buf.wf = true → a.phase = .busy → b.phase = .busy →
    Point.mul (a.bufInt 0x040) generator = .affine xA yA → Point.mul (b.bufInt 0x040) generator = .affine xB yB →
    a.HoldsPoint 0x000 xB yB → b.HoldsPoint 0x000 xA yA →
    exec .ecdh a = .next a' → exec .ecdh b = .next b' → a'.phase = .idle → b'.phase = .idle →
    a'.err = .ok → b'.err = .ok → a'.bufInt 0x140 = b'.bufInt 0x140
end

