-- ==== Sys2Proof/Laws/State.lean ====
section
/-! SUPPORT. What each named update of the state does to each field: one lemma a field, true by rfl. -/

namespace Sys2Proof.Machine

-- One proof at a time: each thread that a proof runs in counts against the memory limit.
set_option Elab.async false

variable (s : State)

/-! ### writeBuf -/

@[simp] theorem State.writeBuf_v (off : Nat) (str : List Byte) : (s.writeBuf off str).v = s.v := rfl
@[simp] theorem State.writeBuf_buf (off : Nat) (str : List Byte) : (s.writeBuf off str).buf = s.buf.writeString off str := rfl
@[simp] theorem State.writeBuf_ien (off : Nat) (str : List Byte) : (s.writeBuf off str).ien = s.ien := rfl
@[simp] theorem State.writeBuf_phase (off : Nat) (str : List Byte) : (s.writeBuf off str).phase = s.phase := rfl
@[simp] theorem State.writeBuf_done (off : Nat) (str : List Byte) : (s.writeBuf off str).done = s.done := rfl
@[simp] theorem State.writeBuf_ovr (off : Nat) (str : List Byte) : (s.writeBuf off str).ovr = s.ovr := rfl
@[simp] theorem State.writeBuf_err (off : Nat) (str : List Byte) : (s.writeBuf off str).err = s.err := rfl
@[simp] theorem State.writeBuf_z (off : Nat) (str : List Byte) : (s.writeBuf off str).z = s.z := rfl
@[simp] theorem State.writeBuf_c (off : Nat) (str : List Byte) : (s.writeBuf off str).c = s.c := rfl
@[simp] theorem State.writeBuf_cmp (off : Nat) (str : List Byte) : (s.writeBuf off str).cmp = s.cmp := rfl
@[simp] theorem State.writeBuf_bit (off : Nat) (str : List Byte) : (s.writeBuf off str).bit = s.bit := rfl
@[simp] theorem State.writeBuf_vok (off : Nat) (str : List Byte) : (s.writeBuf off str).vok = s.vok := rfl
@[simp] theorem State.writeBuf_cmd (off : Nat) (str : List Byte) : (s.writeBuf off str).cmd = s.cmd := rfl
@[simp] theorem State.writeBuf_draws (off : Nat) (str : List Byte) : (s.writeBuf off str).draws = s.draws := rfl
@[simp] theorem State.writeBuf_irq (off : Nat) (str : List Byte) : (s.writeBuf off str).irq = s.irq := rfl
@[simp] theorem State.writeBuf_entReady (off : Nat) (str : List Byte) : (s.writeBuf off str).entReady = s.entReady := rfl
@[simp] theorem State.writeBuf_entropy (off : Nat) (str : List Byte) : (s.writeBuf off str).entropy = s.entropy := rfl
@[simp] theorem State.writeBuf_rst (off : Nat) (str : List Byte) : (s.writeBuf off str).rst = s.rst := rfl
@[simp] theorem State.writeBuf_rdata (off : Nat) (str : List Byte) : (s.writeBuf off str).rdata = s.rdata := rfl
@[simp] theorem State.writeBuf_reads (off : Nat) (str : List Byte) : (s.writeBuf off str).reads = s.reads := rfl
@[simp] theorem State.writeBuf_env (off : Nat) (str : List Byte) : (s.writeBuf off str).env = s.env := rfl

/-! ### writeV -/

@[simp] theorem State.writeV_v (i : Nat) (x : Vli) : (s.writeV i x).v = s.v.setIfInBounds i x := rfl
@[simp] theorem State.writeV_buf (i : Nat) (x : Vli) : (s.writeV i x).buf = s.buf := rfl
@[simp] theorem State.writeV_ien (i : Nat) (x : Vli) : (s.writeV i x).ien = s.ien := rfl
@[simp] theorem State.writeV_phase (i : Nat) (x : Vli) : (s.writeV i x).phase = s.phase := rfl
@[simp] theorem State.writeV_done (i : Nat) (x : Vli) : (s.writeV i x).done = s.done := rfl
@[simp] theorem State.writeV_ovr (i : Nat) (x : Vli) : (s.writeV i x).ovr = s.ovr := rfl
@[simp] theorem State.writeV_err (i : Nat) (x : Vli) : (s.writeV i x).err = s.err := rfl
@[simp] theorem State.writeV_z (i : Nat) (x : Vli) : (s.writeV i x).z = s.z := rfl
@[simp] theorem State.writeV_c (i : Nat) (x : Vli) : (s.writeV i x).c = s.c := rfl
@[simp] theorem State.writeV_cmp (i : Nat) (x : Vli) : (s.writeV i x).cmp = s.cmp := rfl
@[simp] theorem State.writeV_bit (i : Nat) (x : Vli) : (s.writeV i x).bit = s.bit := rfl
@[simp] theorem State.writeV_vok (i : Nat) (x : Vli) : (s.writeV i x).vok = s.vok := rfl
@[simp] theorem State.writeV_cmd (i : Nat) (x : Vli) : (s.writeV i x).cmd = s.cmd := rfl
@[simp] theorem State.writeV_draws (i : Nat) (x : Vli) : (s.writeV i x).draws = s.draws := rfl
@[simp] theorem State.writeV_irq (i : Nat) (x : Vli) : (s.writeV i x).irq = s.irq := rfl
@[simp] theorem State.writeV_entReady (i : Nat) (x : Vli) : (s.writeV i x).entReady = s.entReady := rfl
@[simp] theorem State.writeV_entropy (i : Nat) (x : Vli) : (s.writeV i x).entropy = s.entropy := rfl
@[simp] theorem State.writeV_rst (i : Nat) (x : Vli) : (s.writeV i x).rst = s.rst := rfl
@[simp] theorem State.writeV_rdata (i : Nat) (x : Vli) : (s.writeV i x).rdata = s.rdata := rfl
@[simp] theorem State.writeV_reads (i : Nat) (x : Vli) : (s.writeV i x).reads = s.reads := rfl
@[simp] theorem State.writeV_env (i : Nat) (x : Vli) : (s.writeV i x).env = s.env := rfl

/-! ### setZ -/

@[simp] theorem State.setZ_v (b : Bool) : (s.setZ b).v = s.v := rfl
@[simp] theorem State.setZ_buf (b : Bool) : (s.setZ b).buf = s.buf := rfl
@[simp] theorem State.setZ_ien (b : Bool) : (s.setZ b).ien = s.ien := rfl
@[simp] theorem State.setZ_phase (b : Bool) : (s.setZ b).phase = s.phase := rfl
@[simp] theorem State.setZ_done (b : Bool) : (s.setZ b).done = s.done := rfl
@[simp] theorem State.setZ_ovr (b : Bool) : (s.setZ b).ovr = s.ovr := rfl
@[simp] theorem State.setZ_err (b : Bool) : (s.setZ b).err = s.err := rfl
@[simp] theorem State.setZ_z (b : Bool) : (s.setZ b).z = b := rfl
@[simp] theorem State.setZ_c (b : Bool) : (s.setZ b).c = s.c := rfl
@[simp] theorem State.setZ_cmp (b : Bool) : (s.setZ b).cmp = s.cmp := rfl
@[simp] theorem State.setZ_bit (b : Bool) : (s.setZ b).bit = s.bit := rfl
@[simp] theorem State.setZ_vok (b : Bool) : (s.setZ b).vok = s.vok := rfl
@[simp] theorem State.setZ_cmd (b : Bool) : (s.setZ b).cmd = s.cmd := rfl
@[simp] theorem State.setZ_draws (b : Bool) : (s.setZ b).draws = s.draws := rfl
@[simp] theorem State.setZ_irq (b : Bool) : (s.setZ b).irq = s.irq := rfl
@[simp] theorem State.setZ_entReady (b : Bool) : (s.setZ b).entReady = s.entReady := rfl
@[simp] theorem State.setZ_entropy (b : Bool) : (s.setZ b).entropy = s.entropy := rfl
@[simp] theorem State.setZ_rst (b : Bool) : (s.setZ b).rst = s.rst := rfl
@[simp] theorem State.setZ_rdata (b : Bool) : (s.setZ b).rdata = s.rdata := rfl
@[simp] theorem State.setZ_reads (b : Bool) : (s.setZ b).reads = s.reads := rfl
@[simp] theorem State.setZ_env (b : Bool) : (s.setZ b).env = s.env := rfl

/-! ### setC -/

@[simp] theorem State.setC_v (b : Bool) : (s.setC b).v = s.v := rfl
@[simp] theorem State.setC_buf (b : Bool) : (s.setC b).buf = s.buf := rfl
@[simp] theorem State.setC_ien (b : Bool) : (s.setC b).ien = s.ien := rfl
@[simp] theorem State.setC_phase (b : Bool) : (s.setC b).phase = s.phase := rfl
@[simp] theorem State.setC_done (b : Bool) : (s.setC b).done = s.done := rfl
@[simp] theorem State.setC_ovr (b : Bool) : (s.setC b).ovr = s.ovr := rfl
@[simp] theorem State.setC_err (b : Bool) : (s.setC b).err = s.err := rfl
@[simp] theorem State.setC_z (b : Bool) : (s.setC b).z = s.z := rfl
@[simp] theorem State.setC_c (b : Bool) : (s.setC b).c = b := rfl
@[simp] theorem State.setC_cmp (b : Bool) : (s.setC b).cmp = s.cmp := rfl
@[simp] theorem State.setC_bit (b : Bool) : (s.setC b).bit = s.bit := rfl
@[simp] theorem State.setC_vok (b : Bool) : (s.setC b).vok = s.vok := rfl
@[simp] theorem State.setC_cmd (b : Bool) : (s.setC b).cmd = s.cmd := rfl
@[simp] theorem State.setC_draws (b : Bool) : (s.setC b).draws = s.draws := rfl
@[simp] theorem State.setC_irq (b : Bool) : (s.setC b).irq = s.irq := rfl
@[simp] theorem State.setC_entReady (b : Bool) : (s.setC b).entReady = s.entReady := rfl
@[simp] theorem State.setC_entropy (b : Bool) : (s.setC b).entropy = s.entropy := rfl
@[simp] theorem State.setC_rst (b : Bool) : (s.setC b).rst = s.rst := rfl
@[simp] theorem State.setC_rdata (b : Bool) : (s.setC b).rdata = s.rdata := rfl
@[simp] theorem State.setC_reads (b : Bool) : (s.setC b).reads = s.reads := rfl
@[simp] theorem State.setC_env (b : Bool) : (s.setC b).env = s.env := rfl

/-! ### setCmp -/

@[simp] theorem State.setCmp_v (x : BitVec 2) : (s.setCmp x).v = s.v := rfl
@[simp] theorem State.setCmp_buf (x : BitVec 2) : (s.setCmp x).buf = s.buf := rfl
@[simp] theorem State.setCmp_ien (x : BitVec 2) : (s.setCmp x).ien = s.ien := rfl
@[simp] theorem State.setCmp_phase (x : BitVec 2) : (s.setCmp x).phase = s.phase := rfl
@[simp] theorem State.setCmp_done (x : BitVec 2) : (s.setCmp x).done = s.done := rfl
@[simp] theorem State.setCmp_ovr (x : BitVec 2) : (s.setCmp x).ovr = s.ovr := rfl
@[simp] theorem State.setCmp_err (x : BitVec 2) : (s.setCmp x).err = s.err := rfl
@[simp] theorem State.setCmp_z (x : BitVec 2) : (s.setCmp x).z = s.z := rfl
@[simp] theorem State.setCmp_c (x : BitVec 2) : (s.setCmp x).c = s.c := rfl
@[simp] theorem State.setCmp_cmp (x : BitVec 2) : (s.setCmp x).cmp = x := rfl
@[simp] theorem State.setCmp_bit (x : BitVec 2) : (s.setCmp x).bit = s.bit := rfl
@[simp] theorem State.setCmp_vok (x : BitVec 2) : (s.setCmp x).vok = s.vok := rfl
@[simp] theorem State.setCmp_cmd (x : BitVec 2) : (s.setCmp x).cmd = s.cmd := rfl
@[simp] theorem State.setCmp_draws (x : BitVec 2) : (s.setCmp x).draws = s.draws := rfl
@[simp] theorem State.setCmp_irq (x : BitVec 2) : (s.setCmp x).irq = s.irq := rfl
@[simp] theorem State.setCmp_entReady (x : BitVec 2) : (s.setCmp x).entReady = s.entReady := rfl
@[simp] theorem State.setCmp_entropy (x : BitVec 2) : (s.setCmp x).entropy = s.entropy := rfl
@[simp] theorem State.setCmp_rst (x : BitVec 2) : (s.setCmp x).rst = s.rst := rfl
@[simp] theorem State.setCmp_rdata (x : BitVec 2) : (s.setCmp x).rdata = s.rdata := rfl
@[simp] theorem State.setCmp_reads (x : BitVec 2) : (s.setCmp x).reads = s.reads := rfl
@[simp] theorem State.setCmp_env (x : BitVec 2) : (s.setCmp x).env = s.env := rfl

/-! ### setBit -/

@[simp] theorem State.setBit_v (b : Bool) : (s.setBit b).v = s.v := rfl
@[simp] theorem State.setBit_buf (b : Bool) : (s.setBit b).buf = s.buf := rfl
@[simp] theorem State.setBit_ien (b : Bool) : (s.setBit b).ien = s.ien := rfl
@[simp] theorem State.setBit_phase (b : Bool) : (s.setBit b).phase = s.phase := rfl
@[simp] theorem State.setBit_done (b : Bool) : (s.setBit b).done = s.done := rfl
@[simp] theorem State.setBit_ovr (b : Bool) : (s.setBit b).ovr = s.ovr := rfl
@[simp] theorem State.setBit_err (b : Bool) : (s.setBit b).err = s.err := rfl
@[simp] theorem State.setBit_z (b : Bool) : (s.setBit b).z = s.z := rfl
@[simp] theorem State.setBit_c (b : Bool) : (s.setBit b).c = s.c := rfl
@[simp] theorem State.setBit_cmp (b : Bool) : (s.setBit b).cmp = s.cmp := rfl
@[simp] theorem State.setBit_bit (b : Bool) : (s.setBit b).bit = b := rfl
@[simp] theorem State.setBit_vok (b : Bool) : (s.setBit b).vok = s.vok := rfl
@[simp] theorem State.setBit_cmd (b : Bool) : (s.setBit b).cmd = s.cmd := rfl
@[simp] theorem State.setBit_draws (b : Bool) : (s.setBit b).draws = s.draws := rfl
@[simp] theorem State.setBit_irq (b : Bool) : (s.setBit b).irq = s.irq := rfl
@[simp] theorem State.setBit_entReady (b : Bool) : (s.setBit b).entReady = s.entReady := rfl
@[simp] theorem State.setBit_entropy (b : Bool) : (s.setBit b).entropy = s.entropy := rfl
@[simp] theorem State.setBit_rst (b : Bool) : (s.setBit b).rst = s.rst := rfl
@[simp] theorem State.setBit_rdata (b : Bool) : (s.setBit b).rdata = s.rdata := rfl
@[simp] theorem State.setBit_reads (b : Bool) : (s.setBit b).reads = s.reads := rfl
@[simp] theorem State.setBit_env (b : Bool) : (s.setBit b).env = s.env := rfl

/-! ### setVok -/

@[simp] theorem State.setVok_v (b : Bool) : (s.setVok b).v = s.v := rfl
@[simp] theorem State.setVok_buf (b : Bool) : (s.setVok b).buf = s.buf := rfl
@[simp] theorem State.setVok_ien (b : Bool) : (s.setVok b).ien = s.ien := rfl
@[simp] theorem State.setVok_phase (b : Bool) : (s.setVok b).phase = s.phase := rfl
@[simp] theorem State.setVok_done (b : Bool) : (s.setVok b).done = s.done := rfl
@[simp] theorem State.setVok_ovr (b : Bool) : (s.setVok b).ovr = s.ovr := rfl
@[simp] theorem State.setVok_err (b : Bool) : (s.setVok b).err = s.err := rfl
@[simp] theorem State.setVok_z (b : Bool) : (s.setVok b).z = s.z := rfl
@[simp] theorem State.setVok_c (b : Bool) : (s.setVok b).c = s.c := rfl
@[simp] theorem State.setVok_cmp (b : Bool) : (s.setVok b).cmp = s.cmp := rfl
@[simp] theorem State.setVok_bit (b : Bool) : (s.setVok b).bit = s.bit := rfl
@[simp] theorem State.setVok_vok (b : Bool) : (s.setVok b).vok = b := rfl
@[simp] theorem State.setVok_cmd (b : Bool) : (s.setVok b).cmd = s.cmd := rfl
@[simp] theorem State.setVok_draws (b : Bool) : (s.setVok b).draws = s.draws := rfl
@[simp] theorem State.setVok_irq (b : Bool) : (s.setVok b).irq = s.irq := rfl
@[simp] theorem State.setVok_entReady (b : Bool) : (s.setVok b).entReady = s.entReady := rfl
@[simp] theorem State.setVok_entropy (b : Bool) : (s.setVok b).entropy = s.entropy := rfl
@[simp] theorem State.setVok_rst (b : Bool) : (s.setVok b).rst = s.rst := rfl
@[simp] theorem State.setVok_rdata (b : Bool) : (s.setVok b).rdata = s.rdata := rfl
@[simp] theorem State.setVok_reads (b : Bool) : (s.setVok b).reads = s.reads := rfl
@[simp] theorem State.setVok_env (b : Bool) : (s.setVok b).env = s.env := rfl

/-! ### clearFlags -/

@[simp] theorem State.clearFlags_v : (s.clearFlags).v = s.v := rfl
@[simp] theorem State.clearFlags_buf : (s.clearFlags).buf = s.buf := rfl
@[simp] theorem State.clearFlags_ien : (s.clearFlags).ien = s.ien := rfl
@[simp] theorem State.clearFlags_phase : (s.clearFlags).phase = s.phase := rfl
@[simp] theorem State.clearFlags_done : (s.clearFlags).done = s.done := rfl
@[simp] theorem State.clearFlags_ovr : (s.clearFlags).ovr = s.ovr := rfl
@[simp] theorem State.clearFlags_err : (s.clearFlags).err = s.err := rfl
@[simp] theorem State.clearFlags_z : (s.clearFlags).z = false := rfl
@[simp] theorem State.clearFlags_c : (s.clearFlags).c = false := rfl
@[simp] theorem State.clearFlags_cmp : (s.clearFlags).cmp = 0 := rfl
@[simp] theorem State.clearFlags_bit : (s.clearFlags).bit = false := rfl
@[simp] theorem State.clearFlags_vok : (s.clearFlags).vok = false := rfl
@[simp] theorem State.clearFlags_cmd : (s.clearFlags).cmd = s.cmd := rfl
@[simp] theorem State.clearFlags_draws : (s.clearFlags).draws = s.draws := rfl
@[simp] theorem State.clearFlags_irq : (s.clearFlags).irq = s.irq := rfl
@[simp] theorem State.clearFlags_entReady : (s.clearFlags).entReady = s.entReady := rfl
@[simp] theorem State.clearFlags_entropy : (s.clearFlags).entropy = s.entropy := rfl
@[simp] theorem State.clearFlags_rst : (s.clearFlags).rst = s.rst := rfl
@[simp] theorem State.clearFlags_rdata : (s.clearFlags).rdata = s.rdata := rfl
@[simp] theorem State.clearFlags_reads : (s.clearFlags).reads = s.reads := rfl
@[simp] theorem State.clearFlags_env : (s.clearFlags).env = s.env := rfl

/-! ### driveIrq -/

@[simp] theorem State.driveIrq_v : (s.driveIrq).v = s.v := rfl
@[simp] theorem State.driveIrq_buf : (s.driveIrq).buf = s.buf := rfl
@[simp] theorem State.driveIrq_ien : (s.driveIrq).ien = s.ien := rfl
@[simp] theorem State.driveIrq_phase : (s.driveIrq).phase = s.phase := rfl
@[simp] theorem State.driveIrq_done : (s.driveIrq).done = s.done := rfl
@[simp] theorem State.driveIrq_ovr : (s.driveIrq).ovr = s.ovr := rfl
@[simp] theorem State.driveIrq_err : (s.driveIrq).err = s.err := rfl
@[simp] theorem State.driveIrq_z : (s.driveIrq).z = s.z := rfl
@[simp] theorem State.driveIrq_c : (s.driveIrq).c = s.c := rfl
@[simp] theorem State.driveIrq_cmp : (s.driveIrq).cmp = s.cmp := rfl
@[simp] theorem State.driveIrq_bit : (s.driveIrq).bit = s.bit := rfl
@[simp] theorem State.driveIrq_vok : (s.driveIrq).vok = s.vok := rfl
@[simp] theorem State.driveIrq_cmd : (s.driveIrq).cmd = s.cmd := rfl
@[simp] theorem State.driveIrq_draws : (s.driveIrq).draws = s.draws := rfl
@[simp] theorem State.driveIrq_irq : (s.driveIrq).irq = (s.done && s.ien) := rfl
@[simp] theorem State.driveIrq_entReady : (s.driveIrq).entReady = s.entReady := rfl
@[simp] theorem State.driveIrq_entropy : (s.driveIrq).entropy = s.entropy := rfl
@[simp] theorem State.driveIrq_rst : (s.driveIrq).rst = s.rst := rfl
@[simp] theorem State.driveIrq_rdata : (s.driveIrq).rdata = s.rdata := rfl
@[simp] theorem State.driveIrq_reads : (s.driveIrq).reads = s.reads := rfl
@[simp] theorem State.driveIrq_env : (s.driveIrq).env = s.env := rfl

/-! ### driveEntReady -/

@[simp] theorem State.driveEntReady_v : (s.driveEntReady).v = s.v := rfl
@[simp] theorem State.driveEntReady_buf : (s.driveEntReady).buf = s.buf := rfl
@[simp] theorem State.driveEntReady_ien : (s.driveEntReady).ien = s.ien := rfl
@[simp] theorem State.driveEntReady_phase : (s.driveEntReady).phase = s.phase := rfl
@[simp] theorem State.driveEntReady_done : (s.driveEntReady).done = s.done := rfl
@[simp] theorem State.driveEntReady_ovr : (s.driveEntReady).ovr = s.ovr := rfl
@[simp] theorem State.driveEntReady_err : (s.driveEntReady).err = s.err := rfl
@[simp] theorem State.driveEntReady_z : (s.driveEntReady).z = s.z := rfl
@[simp] theorem State.driveEntReady_c : (s.driveEntReady).c = s.c := rfl
@[simp] theorem State.driveEntReady_cmp : (s.driveEntReady).cmp = s.cmp := rfl
@[simp] theorem State.driveEntReady_bit : (s.driveEntReady).bit = s.bit := rfl
@[simp] theorem State.driveEntReady_vok : (s.driveEntReady).vok = s.vok := rfl
@[simp] theorem State.driveEntReady_cmd : (s.driveEntReady).cmd = s.cmd := rfl
@[simp] theorem State.driveEntReady_draws : (s.driveEntReady).draws = s.draws := rfl
@[simp] theorem State.driveEntReady_irq : (s.driveEntReady).irq = s.irq := rfl
@[simp] theorem State.driveEntReady_entReady : (s.driveEntReady).entReady = (s.busy && s.needsWord) := rfl
@[simp] theorem State.driveEntReady_entropy : (s.driveEntReady).entropy = s.entropy := rfl
@[simp] theorem State.driveEntReady_rst : (s.driveEntReady).rst = s.rst := rfl
@[simp] theorem State.driveEntReady_rdata : (s.driveEntReady).rdata = s.rdata := rfl
@[simp] theorem State.driveEntReady_reads : (s.driveEntReady).reads = s.reads := rfl
@[simp] theorem State.driveEntReady_env : (s.driveEntReady).env = s.env := rfl

/-! ### complete -/

@[simp] theorem State.complete_v (code : ErrCode) (count : Nat) : (s.complete code count).v = s.v := rfl
@[simp] theorem State.complete_buf (code : ErrCode) (count : Nat) : (s.complete code count).buf = s.buf := rfl
@[simp] theorem State.complete_ien (code : ErrCode) (count : Nat) : (s.complete code count).ien = s.ien := rfl
@[simp] theorem State.complete_phase (code : ErrCode) (count : Nat) : (s.complete code count).phase = .idle := rfl
@[simp] theorem State.complete_done (code : ErrCode) (count : Nat) : (s.complete code count).done = true := rfl
@[simp] theorem State.complete_ovr (code : ErrCode) (count : Nat) : (s.complete code count).ovr = s.ovr := rfl
@[simp] theorem State.complete_err (code : ErrCode) (count : Nat) : (s.complete code count).err = code := rfl
@[simp] theorem State.complete_z (code : ErrCode) (count : Nat) : (s.complete code count).z = s.z := rfl
@[simp] theorem State.complete_c (code : ErrCode) (count : Nat) : (s.complete code count).c = s.c := rfl
@[simp] theorem State.complete_cmp (code : ErrCode) (count : Nat) : (s.complete code count).cmp = s.cmp := rfl
@[simp] theorem State.complete_bit (code : ErrCode) (count : Nat) : (s.complete code count).bit = s.bit := rfl
@[simp] theorem State.complete_vok (code : ErrCode) (count : Nat) : (s.complete code count).vok = s.vok := rfl
@[simp] theorem State.complete_cmd (code : ErrCode) (count : Nat) : (s.complete code count).cmd = s.cmd := rfl
@[simp] theorem State.complete_draws (code : ErrCode) (count : Nat) : (s.complete code count).draws = BitVec.ofNat 64 count := rfl
@[simp] theorem State.complete_irq (code : ErrCode) (count : Nat) : (s.complete code count).irq = s.ien := by simp [State.complete, State.driveIrq]
@[simp] theorem State.complete_entReady (code : ErrCode) (count : Nat) : (s.complete code count).entReady = false := rfl
@[simp] theorem State.complete_entropy (code : ErrCode) (count : Nat) : (s.complete code count).entropy = [] := rfl
@[simp] theorem State.complete_rst (code : ErrCode) (count : Nat) : (s.complete code count).rst = s.rst := rfl
@[simp] theorem State.complete_rdata (code : ErrCode) (count : Nat) : (s.complete code count).rdata = s.rdata := rfl
@[simp] theorem State.complete_reads (code : ErrCode) (count : Nat) : (s.complete code count).reads = s.reads := rfl
@[simp] theorem State.complete_env (code : ErrCode) (count : Nat) : (s.complete code count).env = s.env := rfl

/-! ### acknowledge -/

@[simp] theorem State.acknowledge_v (d o : Bool) : (s.acknowledge d o).v = s.v := rfl
@[simp] theorem State.acknowledge_buf (d o : Bool) : (s.acknowledge d o).buf = s.buf := rfl
@[simp] theorem State.acknowledge_ien (d o : Bool) : (s.acknowledge d o).ien = s.ien := rfl
@[simp] theorem State.acknowledge_phase (d o : Bool) : (s.acknowledge d o).phase = s.phase := rfl
@[simp] theorem State.acknowledge_done (d o : Bool) : (s.acknowledge d o).done = (s.done && !d) := rfl
@[simp] theorem State.acknowledge_ovr (d o : Bool) : (s.acknowledge d o).ovr = (s.ovr && !o) := rfl
@[simp] theorem State.acknowledge_err (d o : Bool) : (s.acknowledge d o).err = s.err := rfl
@[simp] theorem State.acknowledge_z (d o : Bool) : (s.acknowledge d o).z = s.z := rfl
@[simp] theorem State.acknowledge_c (d o : Bool) : (s.acknowledge d o).c = s.c := rfl
@[simp] theorem State.acknowledge_cmp (d o : Bool) : (s.acknowledge d o).cmp = s.cmp := rfl
@[simp] theorem State.acknowledge_bit (d o : Bool) : (s.acknowledge d o).bit = s.bit := rfl
@[simp] theorem State.acknowledge_vok (d o : Bool) : (s.acknowledge d o).vok = s.vok := rfl
@[simp] theorem State.acknowledge_cmd (d o : Bool) : (s.acknowledge d o).cmd = s.cmd := rfl
@[simp] theorem State.acknowledge_draws (d o : Bool) : (s.acknowledge d o).draws = s.draws := rfl
@[simp] theorem State.acknowledge_irq (d o : Bool) : (s.acknowledge d o).irq = ((s.done && !d) && s.ien) := rfl
@[simp] theorem State.acknowledge_entReady (d o : Bool) : (s.acknowledge d o).entReady = s.entReady := rfl
@[simp] theorem State.acknowledge_entropy (d o : Bool) : (s.acknowledge d o).entropy = s.entropy := rfl
@[simp] theorem State.acknowledge_rst (d o : Bool) : (s.acknowledge d o).rst = s.rst := rfl
@[simp] theorem State.acknowledge_rdata (d o : Bool) : (s.acknowledge d o).rdata = s.rdata := rfl
@[simp] theorem State.acknowledge_reads (d o : Bool) : (s.acknowledge d o).reads = s.reads := rfl
@[simp] theorem State.acknowledge_env (d o : Bool) : (s.acknowledge d o).env = s.env := rfl

/-! ### dst -/

@[simp] theorem State.dst_buf (r : Reg) (x : Nat) : (s.dst r x).buf = s.buf := rfl
@[simp] theorem State.dst_ien (r : Reg) (x : Nat) : (s.dst r x).ien = s.ien := rfl
@[simp] theorem State.dst_phase (r : Reg) (x : Nat) : (s.dst r x).phase = s.phase := rfl
@[simp] theorem State.dst_done (r : Reg) (x : Nat) : (s.dst r x).done = s.done := rfl
@[simp] theorem State.dst_ovr (r : Reg) (x : Nat) : (s.dst r x).ovr = s.ovr := rfl
@[simp] theorem State.dst_err (r : Reg) (x : Nat) : (s.dst r x).err = s.err := rfl
@[simp] theorem State.dst_z (r : Reg) (x : Nat) : (s.dst r x).z = s.z := rfl
@[simp] theorem State.dst_c (r : Reg) (x : Nat) : (s.dst r x).c = s.c := rfl
@[simp] theorem State.dst_cmp (r : Reg) (x : Nat) : (s.dst r x).cmp = s.cmp := rfl
@[simp] theorem State.dst_bit (r : Reg) (x : Nat) : (s.dst r x).bit = s.bit := rfl
@[simp] theorem State.dst_vok (r : Reg) (x : Nat) : (s.dst r x).vok = s.vok := rfl
@[simp] theorem State.dst_cmd (r : Reg) (x : Nat) : (s.dst r x).cmd = s.cmd := rfl
@[simp] theorem State.dst_draws (r : Reg) (x : Nat) : (s.dst r x).draws = s.draws := rfl
@[simp] theorem State.dst_irq (r : Reg) (x : Nat) : (s.dst r x).irq = s.irq := rfl
@[simp] theorem State.dst_entReady (r : Reg) (x : Nat) : (s.dst r x).entReady = s.entReady := rfl
@[simp] theorem State.dst_entropy (r : Reg) (x : Nat) : (s.dst r x).entropy = s.entropy := rfl
@[simp] theorem State.dst_rst (r : Reg) (x : Nat) : (s.dst r x).rst = s.rst := rfl
@[simp] theorem State.dst_rdata (r : Reg) (x : Nat) : (s.dst r x).rdata = s.rdata := rfl
@[simp] theorem State.dst_reads (r : Reg) (x : Nat) : (s.dst r x).reads = s.reads := rfl
@[simp] theorem State.dst_env (r : Reg) (x : Nat) : (s.dst r x).env = s.env := rfl

/-! ### dstAt -/

@[simp] theorem State.dstAt_buf (r : Reg) (k x : Nat) : (s.dstAt r k x).buf = s.buf := rfl
@[simp] theorem State.dstAt_ien (r : Reg) (k x : Nat) : (s.dstAt r k x).ien = s.ien := rfl
@[simp] theorem State.dstAt_phase (r : Reg) (k x : Nat) : (s.dstAt r k x).phase = s.phase := rfl
@[simp] theorem State.dstAt_done (r : Reg) (k x : Nat) : (s.dstAt r k x).done = s.done := rfl
@[simp] theorem State.dstAt_ovr (r : Reg) (k x : Nat) : (s.dstAt r k x).ovr = s.ovr := rfl
@[simp] theorem State.dstAt_err (r : Reg) (k x : Nat) : (s.dstAt r k x).err = s.err := rfl
@[simp] theorem State.dstAt_z (r : Reg) (k x : Nat) : (s.dstAt r k x).z = s.z := rfl
@[simp] theorem State.dstAt_c (r : Reg) (k x : Nat) : (s.dstAt r k x).c = s.c := rfl
@[simp] theorem State.dstAt_cmp (r : Reg) (k x : Nat) : (s.dstAt r k x).cmp = s.cmp := rfl
@[simp] theorem State.dstAt_bit (r : Reg) (k x : Nat) : (s.dstAt r k x).bit = s.bit := rfl
@[simp] theorem State.dstAt_vok (r : Reg) (k x : Nat) : (s.dstAt r k x).vok = s.vok := rfl
@[simp] theorem State.dstAt_cmd (r : Reg) (k x : Nat) : (s.dstAt r k x).cmd = s.cmd := rfl
@[simp] theorem State.dstAt_draws (r : Reg) (k x : Nat) : (s.dstAt r k x).draws = s.draws := rfl
@[simp] theorem State.dstAt_irq (r : Reg) (k x : Nat) : (s.dstAt r k x).irq = s.irq := rfl
@[simp] theorem State.dstAt_entReady (r : Reg) (k x : Nat) : (s.dstAt r k x).entReady = s.entReady := rfl
@[simp] theorem State.dstAt_entropy (r : Reg) (k x : Nat) : (s.dstAt r k x).entropy = s.entropy := rfl
@[simp] theorem State.dstAt_rst (r : Reg) (k x : Nat) : (s.dstAt r k x).rst = s.rst := rfl
@[simp] theorem State.dstAt_rdata (r : Reg) (k x : Nat) : (s.dstAt r k x).rdata = s.rdata := rfl
@[simp] theorem State.dstAt_reads (r : Reg) (k x : Nat) : (s.dstAt r k x).reads = s.reads := rfl
@[simp] theorem State.dstAt_env (r : Reg) (k x : Nat) : (s.dstAt r k x).env = s.env := rfl

/-! ### dstWide -/

@[simp] theorem State.dstWide_buf (r : Reg) (x : Nat) : (s.dstWide r x).buf = s.buf := rfl
@[simp] theorem State.dstWide_ien (r : Reg) (x : Nat) : (s.dstWide r x).ien = s.ien := rfl
@[simp] theorem State.dstWide_phase (r : Reg) (x : Nat) : (s.dstWide r x).phase = s.phase := rfl
@[simp] theorem State.dstWide_done (r : Reg) (x : Nat) : (s.dstWide r x).done = s.done := rfl
@[simp] theorem State.dstWide_ovr (r : Reg) (x : Nat) : (s.dstWide r x).ovr = s.ovr := rfl
@[simp] theorem State.dstWide_err (r : Reg) (x : Nat) : (s.dstWide r x).err = s.err := rfl
@[simp] theorem State.dstWide_z (r : Reg) (x : Nat) : (s.dstWide r x).z = s.z := rfl
@[simp] theorem State.dstWide_c (r : Reg) (x : Nat) : (s.dstWide r x).c = s.c := rfl
@[simp] theorem State.dstWide_cmp (r : Reg) (x : Nat) : (s.dstWide r x).cmp = s.cmp := rfl
@[simp] theorem State.dstWide_bit (r : Reg) (x : Nat) : (s.dstWide r x).bit = s.bit := rfl
@[simp] theorem State.dstWide_vok (r : Reg) (x : Nat) : (s.dstWide r x).vok = s.vok := rfl
@[simp] theorem State.dstWide_cmd (r : Reg) (x : Nat) : (s.dstWide r x).cmd = s.cmd := rfl
@[simp] theorem State.dstWide_draws (r : Reg) (x : Nat) : (s.dstWide r x).draws = s.draws := rfl
@[simp] theorem State.dstWide_irq (r : Reg) (x : Nat) : (s.dstWide r x).irq = s.irq := rfl
@[simp] theorem State.dstWide_entReady (r : Reg) (x : Nat) : (s.dstWide r x).entReady = s.entReady := rfl
@[simp] theorem State.dstWide_entropy (r : Reg) (x : Nat) : (s.dstWide r x).entropy = s.entropy := rfl
@[simp] theorem State.dstWide_rst (r : Reg) (x : Nat) : (s.dstWide r x).rst = s.rst := rfl
@[simp] theorem State.dstWide_rdata (r : Reg) (x : Nat) : (s.dstWide r x).rdata = s.rdata := rfl
@[simp] theorem State.dstWide_reads (r : Reg) (x : Nat) : (s.dstWide r x).reads = s.reads := rfl
@[simp] theorem State.dstWide_env (r : Reg) (x : Nat) : (s.dstWide r x).env = s.env := rfl

/-! ### dstPair -/

@[simp] theorem State.dstPair_buf (r : Reg) (xy : Nat × Nat) : (s.dstPair r xy).buf = s.buf := rfl
@[simp] theorem State.dstPair_ien (r : Reg) (xy : Nat × Nat) : (s.dstPair r xy).ien = s.ien := rfl
@[simp] theorem State.dstPair_phase (r : Reg) (xy : Nat × Nat) : (s.dstPair r xy).phase = s.phase := rfl
@[simp] theorem State.dstPair_done (r : Reg) (xy : Nat × Nat) : (s.dstPair r xy).done = s.done := rfl
@[simp] theorem State.dstPair_ovr (r : Reg) (xy : Nat × Nat) : (s.dstPair r xy).ovr = s.ovr := rfl
@[simp] theorem State.dstPair_err (r : Reg) (xy : Nat × Nat) : (s.dstPair r xy).err = s.err := rfl
@[simp] theorem State.dstPair_z (r : Reg) (xy : Nat × Nat) : (s.dstPair r xy).z = s.z := rfl
@[simp] theorem State.dstPair_c (r : Reg) (xy : Nat × Nat) : (s.dstPair r xy).c = s.c := rfl
@[simp] theorem State.dstPair_cmp (r : Reg) (xy : Nat × Nat) : (s.dstPair r xy).cmp = s.cmp := rfl
@[simp] theorem State.dstPair_bit (r : Reg) (xy : Nat × Nat) : (s.dstPair r xy).bit = s.bit := rfl
@[simp] theorem State.dstPair_vok (r : Reg) (xy : Nat × Nat) : (s.dstPair r xy).vok = s.vok := rfl
@[simp] theorem State.dstPair_cmd (r : Reg) (xy : Nat × Nat) : (s.dstPair r xy).cmd = s.cmd := rfl
@[simp] theorem State.dstPair_draws (r : Reg) (xy : Nat × Nat) : (s.dstPair r xy).draws = s.draws := rfl
@[simp] theorem State.dstPair_irq (r : Reg) (xy : Nat × Nat) : (s.dstPair r xy).irq = s.irq := rfl
@[simp] theorem State.dstPair_entReady (r : Reg) (xy : Nat × Nat) : (s.dstPair r xy).entReady = s.entReady := rfl
@[simp] theorem State.dstPair_entropy (r : Reg) (xy : Nat × Nat) : (s.dstPair r xy).entropy = s.entropy := rfl
@[simp] theorem State.dstPair_rst (r : Reg) (xy : Nat × Nat) : (s.dstPair r xy).rst = s.rst := rfl
@[simp] theorem State.dstPair_rdata (r : Reg) (xy : Nat × Nat) : (s.dstPair r xy).rdata = s.rdata := rfl
@[simp] theorem State.dstPair_reads (r : Reg) (xy : Nat × Nat) : (s.dstPair r xy).reads = s.reads := rfl
@[simp] theorem State.dstPair_env (r : Reg) (xy : Nat × Nat) : (s.dstPair r xy).env = s.env := rfl

/-! ### dstTriple -/

@[simp] theorem State.dstTriple_buf (r : Reg) (xyz : Nat × Nat × Nat) : (s.dstTriple r xyz).buf = s.buf := rfl
@[simp] theorem State.dstTriple_ien (r : Reg) (xyz : Nat × Nat × Nat) : (s.dstTriple r xyz).ien = s.ien := rfl
@[simp] theorem State.dstTriple_phase (r : Reg) (xyz : Nat × Nat × Nat) : (s.dstTriple r xyz).phase = s.phase := rfl
@[simp] theorem State.dstTriple_done (r : Reg) (xyz : Nat × Nat × Nat) : (s.dstTriple r xyz).done = s.done := rfl
@[simp] theorem State.dstTriple_ovr (r : Reg) (xyz : Nat × Nat × Nat) : (s.dstTriple r xyz).ovr = s.ovr := rfl
@[simp] theorem State.dstTriple_err (r : Reg) (xyz : Nat × Nat × Nat) : (s.dstTriple r xyz).err = s.err := rfl
@[simp] theorem State.dstTriple_z (r : Reg) (xyz : Nat × Nat × Nat) : (s.dstTriple r xyz).z = s.z := rfl
@[simp] theorem State.dstTriple_c (r : Reg) (xyz : Nat × Nat × Nat) : (s.dstTriple r xyz).c = s.c := rfl
@[simp] theorem State.dstTriple_cmp (r : Reg) (xyz : Nat × Nat × Nat) : (s.dstTriple r xyz).cmp = s.cmp := rfl
@[simp] theorem State.dstTriple_bit (r : Reg) (xyz : Nat × Nat × Nat) : (s.dstTriple r xyz).bit = s.bit := rfl
@[simp] theorem State.dstTriple_vok (r : Reg) (xyz : Nat × Nat × Nat) : (s.dstTriple r xyz).vok = s.vok := rfl
@[simp] theorem State.dstTriple_cmd (r : Reg) (xyz : Nat × Nat × Nat) : (s.dstTriple r xyz).cmd = s.cmd := rfl
@[simp] theorem State.dstTriple_draws (r : Reg) (xyz : Nat × Nat × Nat) : (s.dstTriple r xyz).draws = s.draws := rfl
@[simp] theorem State.dstTriple_irq (r : Reg) (xyz : Nat × Nat × Nat) : (s.dstTriple r xyz).irq = s.irq := rfl
@[simp] theorem State.dstTriple_entReady (r : Reg) (xyz : Nat × Nat × Nat) : (s.dstTriple r xyz).entReady = s.entReady := rfl
@[simp] theorem State.dstTriple_entropy (r : Reg) (xyz : Nat × Nat × Nat) : (s.dstTriple r xyz).entropy = s.entropy := rfl
@[simp] theorem State.dstTriple_rst (r : Reg) (xyz : Nat × Nat × Nat) : (s.dstTriple r xyz).rst = s.rst := rfl
@[simp] theorem State.dstTriple_rdata (r : Reg) (xyz : Nat × Nat × Nat) : (s.dstTriple r xyz).rdata = s.rdata := rfl
@[simp] theorem State.dstTriple_reads (r : Reg) (xyz : Nat × Nat × Nat) : (s.dstTriple r xyz).reads = s.reads := rfl
@[simp] theorem State.dstTriple_env (r : Reg) (xyz : Nat × Nat × Nat) : (s.dstTriple r xyz).env = s.env := rfl

/-! ### dstPairAt -/

@[simp] theorem State.dstPairAt_buf (r : Reg) (k : Nat) (xy : Nat × Nat) : (s.dstPairAt r k xy).buf = s.buf := rfl
@[simp] theorem State.dstPairAt_ien (r : Reg) (k : Nat) (xy : Nat × Nat) : (s.dstPairAt r k xy).ien = s.ien := rfl
@[simp] theorem State.dstPairAt_phase (r : Reg) (k : Nat) (xy : Nat × Nat) : (s.dstPairAt r k xy).phase = s.phase := rfl
@[simp] theorem State.dstPairAt_done (r : Reg) (k : Nat) (xy : Nat × Nat) : (s.dstPairAt r k xy).done = s.done := rfl
@[simp] theorem State.dstPairAt_ovr (r : Reg) (k : Nat) (xy : Nat × Nat) : (s.dstPairAt r k xy).ovr = s.ovr := rfl
@[simp] theorem State.dstPairAt_err (r : Reg) (k : Nat) (xy : Nat × Nat) : (s.dstPairAt r k xy).err = s.err := rfl
@[simp] theorem State.dstPairAt_z (r : Reg) (k : Nat) (xy : Nat × Nat) : (s.dstPairAt r k xy).z = s.z := rfl
@[simp] theorem State.dstPairAt_c (r : Reg) (k : Nat) (xy : Nat × Nat) : (s.dstPairAt r k xy).c = s.c := rfl
@[simp] theorem State.dstPairAt_cmp (r : Reg) (k : Nat) (xy : Nat × Nat) : (s.dstPairAt r k xy).cmp = s.cmp := rfl
@[simp] theorem State.dstPairAt_bit (r : Reg) (k : Nat) (xy : Nat × Nat) : (s.dstPairAt r k xy).bit = s.bit := rfl
@[simp] theorem State.dstPairAt_vok (r : Reg) (k : Nat) (xy : Nat × Nat) : (s.dstPairAt r k xy).vok = s.vok := rfl
@[simp] theorem State.dstPairAt_cmd (r : Reg) (k : Nat) (xy : Nat × Nat) : (s.dstPairAt r k xy).cmd = s.cmd := rfl
@[simp] theorem State.dstPairAt_draws (r : Reg) (k : Nat) (xy : Nat × Nat) : (s.dstPairAt r k xy).draws = s.draws := rfl
@[simp] theorem State.dstPairAt_irq (r : Reg) (k : Nat) (xy : Nat × Nat) : (s.dstPairAt r k xy).irq = s.irq := rfl
@[simp] theorem State.dstPairAt_entReady (r : Reg) (k : Nat) (xy : Nat × Nat) : (s.dstPairAt r k xy).entReady = s.entReady := rfl
@[simp] theorem State.dstPairAt_entropy (r : Reg) (k : Nat) (xy : Nat × Nat) : (s.dstPairAt r k xy).entropy = s.entropy := rfl
@[simp] theorem State.dstPairAt_rst (r : Reg) (k : Nat) (xy : Nat × Nat) : (s.dstPairAt r k xy).rst = s.rst := rfl
@[simp] theorem State.dstPairAt_rdata (r : Reg) (k : Nat) (xy : Nat × Nat) : (s.dstPairAt r k xy).rdata = s.rdata := rfl
@[simp] theorem State.dstPairAt_reads (r : Reg) (k : Nat) (xy : Nat × Nat) : (s.dstPairAt r k xy).reads = s.reads := rfl
@[simp] theorem State.dstPairAt_env (r : Reg) (k : Nat) (xy : Nat × Nat) : (s.dstPairAt r k xy).env = s.env := rfl

/-! ### returns -/

@[simp] theorem State.returns_v (d : Word64) : (s.returns d).v = s.v := rfl
@[simp] theorem State.returns_buf (d : Word64) : (s.returns d).buf = s.buf := rfl
@[simp] theorem State.returns_ien (d : Word64) : (s.returns d).ien = s.ien := rfl
@[simp] theorem State.returns_phase (d : Word64) : (s.returns d).phase = s.phase := rfl
@[simp] theorem State.returns_done (d : Word64) : (s.returns d).done = s.done := rfl
@[simp] theorem State.returns_ovr (d : Word64) : (s.returns d).ovr = s.ovr := rfl
@[simp] theorem State.returns_err (d : Word64) : (s.returns d).err = s.err := rfl
@[simp] theorem State.returns_z (d : Word64) : (s.returns d).z = s.z := rfl
@[simp] theorem State.returns_c (d : Word64) : (s.returns d).c = s.c := rfl
@[simp] theorem State.returns_cmp (d : Word64) : (s.returns d).cmp = s.cmp := rfl
@[simp] theorem State.returns_bit (d : Word64) : (s.returns d).bit = s.bit := rfl
@[simp] theorem State.returns_vok (d : Word64) : (s.returns d).vok = s.vok := rfl
@[simp] theorem State.returns_cmd (d : Word64) : (s.returns d).cmd = s.cmd := rfl
@[simp] theorem State.returns_draws (d : Word64) : (s.returns d).draws = s.draws := rfl
@[simp] theorem State.returns_irq (d : Word64) : (s.returns d).irq = s.irq := rfl
@[simp] theorem State.returns_entReady (d : Word64) : (s.returns d).entReady = s.entReady := rfl
@[simp] theorem State.returns_entropy (d : Word64) : (s.returns d).entropy = s.entropy := rfl
@[simp] theorem State.returns_rst (d : Word64) : (s.returns d).rst = s.rst := rfl
@[simp] theorem State.returns_rdata (d : Word64) : (s.returns d).rdata = d := rfl
@[simp] theorem State.returns_reads (d : Word64) : (s.returns d).reads = s.reads := rfl
@[simp] theorem State.returns_env (d : Word64) : (s.returns d).env = s.env := rfl

/-! ### returnsUnspecified -/

@[simp] theorem State.returnsUnspecified_v (bytes : Nat) : (s.returnsUnspecified bytes).v = s.v := rfl
@[simp] theorem State.returnsUnspecified_buf (bytes : Nat) : (s.returnsUnspecified bytes).buf = s.buf := rfl
@[simp] theorem State.returnsUnspecified_ien (bytes : Nat) : (s.returnsUnspecified bytes).ien = s.ien := rfl
@[simp] theorem State.returnsUnspecified_phase (bytes : Nat) : (s.returnsUnspecified bytes).phase = s.phase := rfl
@[simp] theorem State.returnsUnspecified_done (bytes : Nat) : (s.returnsUnspecified bytes).done = s.done := rfl
@[simp] theorem State.returnsUnspecified_ovr (bytes : Nat) : (s.returnsUnspecified bytes).ovr = s.ovr := rfl
@[simp] theorem State.returnsUnspecified_err (bytes : Nat) : (s.returnsUnspecified bytes).err = s.err := rfl
@[simp] theorem State.returnsUnspecified_z (bytes : Nat) : (s.returnsUnspecified bytes).z = s.z := rfl
@[simp] theorem State.returnsUnspecified_c (bytes : Nat) : (s.returnsUnspecified bytes).c = s.c := rfl
@[simp] theorem State.returnsUnspecified_cmp (bytes : Nat) : (s.returnsUnspecified bytes).cmp = s.cmp := rfl
@[simp] theorem State.returnsUnspecified_bit (bytes : Nat) : (s.returnsUnspecified bytes).bit = s.bit := rfl
@[simp] theorem State.returnsUnspecified_vok (bytes : Nat) : (s.returnsUnspecified bytes).vok = s.vok := rfl
@[simp] theorem State.returnsUnspecified_cmd (bytes : Nat) : (s.returnsUnspecified bytes).cmd = s.cmd := rfl
@[simp] theorem State.returnsUnspecified_draws (bytes : Nat) : (s.returnsUnspecified bytes).draws = s.draws := rfl
@[simp] theorem State.returnsUnspecified_irq (bytes : Nat) : (s.returnsUnspecified bytes).irq = s.irq := rfl
@[simp] theorem State.returnsUnspecified_entReady (bytes : Nat) : (s.returnsUnspecified bytes).entReady = s.entReady := rfl
@[simp] theorem State.returnsUnspecified_entropy (bytes : Nat) : (s.returnsUnspecified bytes).entropy = s.entropy := rfl
@[simp] theorem State.returnsUnspecified_rst (bytes : Nat) : (s.returnsUnspecified bytes).rst = s.rst := rfl
@[simp] theorem State.returnsUnspecified_rdata (bytes : Nat) : (s.returnsUnspecified bytes).rdata = BitVec.ofNat 64 ((Config.busyRead s.reads).toNat % 256 ^ bytes) := rfl
@[simp] theorem State.returnsUnspecified_reads (bytes : Nat) : (s.returnsUnspecified bytes).reads = s.reads + 1 := rfl
@[simp] theorem State.returnsUnspecified_env (bytes : Nat) : (s.returnsUnspecified bytes).env = s.env := rfl

/-! ### dropWrite -/

@[simp] theorem State.dropWrite_v : (s.dropWrite).v = s.v := rfl
@[simp] theorem State.dropWrite_buf : (s.dropWrite).buf = s.buf := rfl
@[simp] theorem State.dropWrite_ien : (s.dropWrite).ien = s.ien := rfl
@[simp] theorem State.dropWrite_phase : (s.dropWrite).phase = s.phase := rfl
@[simp] theorem State.dropWrite_done : (s.dropWrite).done = s.done := rfl
@[simp] theorem State.dropWrite_ovr : (s.dropWrite).ovr = true := rfl
@[simp] theorem State.dropWrite_err : (s.dropWrite).err = s.err := rfl
@[simp] theorem State.dropWrite_z : (s.dropWrite).z = s.z := rfl
@[simp] theorem State.dropWrite_c : (s.dropWrite).c = s.c := rfl
@[simp] theorem State.dropWrite_cmp : (s.dropWrite).cmp = s.cmp := rfl
@[simp] theorem State.dropWrite_bit : (s.dropWrite).bit = s.bit := rfl
@[simp] theorem State.dropWrite_vok : (s.dropWrite).vok = s.vok := rfl
@[simp] theorem State.dropWrite_cmd : (s.dropWrite).cmd = s.cmd := rfl
@[simp] theorem State.dropWrite_draws : (s.dropWrite).draws = s.draws := rfl
@[simp] theorem State.dropWrite_irq : (s.dropWrite).irq = s.irq := rfl
@[simp] theorem State.dropWrite_entReady : (s.dropWrite).entReady = s.entReady := rfl
@[simp] theorem State.dropWrite_entropy : (s.dropWrite).entropy = s.entropy := rfl
@[simp] theorem State.dropWrite_rst : (s.dropWrite).rst = s.rst := rfl
@[simp] theorem State.dropWrite_rdata : (s.dropWrite).rdata = s.rdata := rfl
@[simp] theorem State.dropWrite_reads : (s.dropWrite).reads = s.reads := rfl
@[simp] theorem State.dropWrite_env : (s.dropWrite).env = s.env := rfl

/-! ### accept -/

@[simp] theorem State.accept_v (w : Word64) : (s.accept w).v = s.v := rfl
@[simp] theorem State.accept_buf (w : Word64) : (s.accept w).buf = s.buf := rfl
@[simp] theorem State.accept_ien (w : Word64) : (s.accept w).ien = s.ien := rfl
@[simp] theorem State.accept_phase (w : Word64) : (s.accept w).phase = .busy := rfl
@[simp] theorem State.accept_done (w : Word64) : (s.accept w).done = false := rfl
@[simp] theorem State.accept_ovr (w : Word64) : (s.accept w).ovr = s.ovr := rfl
@[simp] theorem State.accept_err (w : Word64) : (s.accept w).err = .ok := rfl
@[simp] theorem State.accept_z (w : Word64) : (s.accept w).z = s.z := rfl
@[simp] theorem State.accept_c (w : Word64) : (s.accept w).c = s.c := rfl
@[simp] theorem State.accept_cmp (w : Word64) : (s.accept w).cmp = s.cmp := rfl
@[simp] theorem State.accept_bit (w : Word64) : (s.accept w).bit = s.bit := rfl
@[simp] theorem State.accept_vok (w : Word64) : (s.accept w).vok = s.vok := rfl
@[simp] theorem State.accept_cmd (w : Word64) : (s.accept w).cmd = w := rfl
@[simp] theorem State.accept_draws (w : Word64) : (s.accept w).draws = s.draws := rfl
@[simp] theorem State.accept_irq (w : Word64) : (s.accept w).irq = false := rfl
@[simp] theorem State.accept_entropy (w : Word64) : (s.accept w).entropy = [] := rfl
@[simp] theorem State.accept_rst (w : Word64) : (s.accept w).rst = s.rst := rfl
@[simp] theorem State.accept_rdata (w : Word64) : (s.accept w).rdata = s.rdata := rfl
@[simp] theorem State.accept_reads (w : Word64) : (s.accept w).reads = s.reads := rfl
@[simp] theorem State.accept_env (w : Word64) : (s.accept w).env = s.env := rfl

/-! ### resetCore -/

@[simp] theorem State.resetCore_v : (s.resetCore).v = Vector.replicate 16 0 := rfl
@[simp] theorem State.resetCore_buf : (s.resetCore).buf = [] := rfl
@[simp] theorem State.resetCore_ien : (s.resetCore).ien = false := rfl
@[simp] theorem State.resetCore_phase : (s.resetCore).phase = .idle := rfl
@[simp] theorem State.resetCore_done : (s.resetCore).done = false := rfl
@[simp] theorem State.resetCore_ovr : (s.resetCore).ovr = false := rfl
@[simp] theorem State.resetCore_err : (s.resetCore).err = .ok := rfl
@[simp] theorem State.resetCore_z : (s.resetCore).z = false := rfl
@[simp] theorem State.resetCore_c : (s.resetCore).c = false := rfl
@[simp] theorem State.resetCore_cmp : (s.resetCore).cmp = 0 := rfl
@[simp] theorem State.resetCore_bit : (s.resetCore).bit = false := rfl
@[simp] theorem State.resetCore_vok : (s.resetCore).vok = false := rfl
@[simp] theorem State.resetCore_cmd : (s.resetCore).cmd = 0 := rfl
@[simp] theorem State.resetCore_draws : (s.resetCore).draws = 0 := rfl
@[simp] theorem State.resetCore_irq : (s.resetCore).irq = false := rfl
@[simp] theorem State.resetCore_entReady : (s.resetCore).entReady = false := rfl
@[simp] theorem State.resetCore_entropy : (s.resetCore).entropy = [] := rfl
@[simp] theorem State.resetCore_rst : (s.resetCore).rst = s.rst := rfl
@[simp] theorem State.resetCore_rdata : (s.resetCore).rdata = s.rdata := rfl
@[simp] theorem State.resetCore_reads : (s.resetCore).reads = s.reads := rfl
@[simp] theorem State.resetCore_env : (s.resetCore).env = s.env := rfl

end Sys2Proof.Machine
end

