-- ==== Sys2Proof/Laws/Arith.lean ====
section
/-! SUPPORT. What the arithmetic operations compute: the constants' congruences (R13), the fold of FastReduce
(R133), exponentiation, and halving. -/

namespace Sys2Proof.Machine

-- One proof at a time: each thread that a proof runs in counts against the memory limit.
set_option Elab.async false

set_option exponentiation.threshold 1000

/-! ### Constants (R13) -/

theorem fieldPrime_pos : 0 < fieldPrime := by decide

theorem groupOrder_pos : 0 < groupOrder := by decide

theorem groupOrder_lt_fieldPrime : groupOrder < fieldPrime := by decide

theorem fieldPrime_lt : fieldPrime < 2 ^ 384 := by decide +kernel

theorem modulusValue_pos (m : Modulus) : 0 < modulusValue m := by
  cases m
  · exact fieldPrime_pos
  · exact groupOrder_pos

theorem modulusValue_lt (m : Modulus) : modulusValue m < 2 ^ 384 := by
  cases m
  · exact fieldPrime_lt
  · exact groupOrder_lt_fieldPrime.trans fieldPrime_lt

theorem modulusValue_odd (m : Modulus) : modulusValue m % 2 = 1 := by cases m <;> decide

/-- The formula of the document for p (R12). -/
theorem fieldPrime_formula : fieldPrime + 2 ^ 128 + 2 ^ 96 + 1 = 2 ^ 384 + 2 ^ 32 := by decide +kernel

/-- 2^384 = p + ω, so 2^384 ≡ ω (mod p) (R13). -/
theorem two_pow_eq : 2 ^ 384 = fieldPrime + omega := by decide +kernel

/-- p ≡ 3 (mod 4) (R13). -/
theorem fieldPrime_mod_four : fieldPrime % 4 = 3 := by decide

/-! ### The fold (R133) -/

/-- One fold keeps the residue mod p. -/
theorem fold_modEq (x : Nat) : (x % 2 ^ 384 + omega * (x / 2 ^ 384)) % fieldPrime = x % fieldPrime := by
  have h : x = x % 2 ^ 384 + omega * (x / 2 ^ 384) + fieldPrime * (x / 2 ^ 384) := by
    have h1 := Nat.mod_add_div x (2 ^ 384)
    have h2 : 2 ^ 384 * (x / 2 ^ 384) = (fieldPrime + omega) * (x / 2 ^ 384) := by rw [← two_pow_eq]
    rw [Nat.add_mul] at h2
    omega
  conv_rhs => rw [h]
  rw [Nat.add_mul_mod_self_left]

/-- Any number of folds keeps the residue mod p. -/
theorem foldHigh_mod (fuel x : Nat) : foldHigh fuel x % fieldPrime = x % fieldPrime := by
  induction fuel generalizing x with
  | zero => rfl
  | succ fuel ih =>
    unfold foldHigh
    split
    · rfl
    · rw [ih, fold_modEq]

/-- A fold of a value with a nonzero high half is not zero, so a nonzero value never folds to zero (R139). -/
theorem foldHigh_pos (fuel x : Nat) (h : 0 < x) : 0 < foldHigh fuel x := by
  induction fuel generalizing x with
  | zero => exact h
  | succ fuel ih =>
    unfold foldHigh
    split
    · exact h
    · apply ih
      have h1 : 0 < x / 2 ^ 384 := by omega
      have h2 : 0 < omega := by decide
      have := Nat.mul_pos h2 h1
      omega

theorem foldHigh_of_lt (fuel x : Nat) (h : x < 2 ^ 384) : foldHigh fuel x = x := by
  cases fuel with
  | zero => rfl
  | succ fuel => rw [foldHigh, if_pos (Nat.div_eq_of_lt h)]

/-- Three folds bring every 768-bit value below 2^384 (R139), so the loop of R133 ends inside its count. -/
theorem foldHigh_lt (x : Nat) (h : x < 2 ^ 768) : foldHigh 3 x < 2 ^ 384 := by
  have ho : omega < 2 ^ 129 := by decide +kernel
  have fold : ∀ y b, y / 2 ^ 384 ≤ b →
      y % 2 ^ 384 + omega * (y / 2 ^ 384) < 2 ^ 384 + 2 ^ 129 * b + 1 := by
    intro y b hb
    have h1 : y % 2 ^ 384 < 2 ^ 384 := Nat.mod_lt _ (by norm_num)
    have h2 : omega * (y / 2 ^ 384) ≤ 2 ^ 129 * b := Nat.mul_le_mul ho.le hb
    omega
  rw [foldHigh]
  split
  · omega
  · have h1 := fold x (2 ^ 384) (by omega)
    generalize x % 2 ^ 384 + omega * (x / 2 ^ 384) = y at h1 ⊢
    rw [foldHigh]
    split
    · omega
    · have h2 := fold y (2 ^ 130) (by omega)
      generalize y % 2 ^ 384 + omega * (y / 2 ^ 384) = z at h2 ⊢
      rw [foldHigh]
      split
      · omega
      · rw [foldHigh]
        have h3 : z / 2 ^ 384 = 1 := by omega
        rw [h3]
        omega

/-! ### Exponentiation -/

theorem powLoop_eq (m : Nat) :
    ∀ (fuel b e acc : Nat), e < 2 ^ fuel → acc % m = acc → powLoop m fuel b e acc = acc * b ^ e % m
  | 0, b, e, acc, he, hacc => by
    have : e = 0 := by simpa using he
    subst this
    simp [powLoop, hacc]
  | fuel + 1, b, e, acc, he, hacc => by
    unfold powLoop
    split
    · subst e; simp [hacc]
    · have he' : e / 2 < 2 ^ fuel := by rw [pow_succ] at he; omega
      have hsq : (b * b % m) ^ (e / 2) % m = b ^ (2 * (e / 2)) % m := by
        rw [← Nat.pow_mod, ← pow_two, ← pow_mul]
      split
      · have hodd : e = 2 * (e / 2) + 1 := by omega
        rw [powLoop_eq m fuel _ _ _ he' (Nat.mod_mod _ _)]
        conv_rhs => rw [hodd, pow_succ, show acc * (b ^ (2 * (e / 2)) * b) = acc * b * b ^ (2 * (e / 2)) by ring]
        rw [Nat.mul_mod, Nat.mod_mod, hsq, ← Nat.mul_mod]
      · have heven : e = 2 * (e / 2) := by omega
        rw [powLoop_eq m fuel _ _ _ he' hacc]
        conv_rhs => rw [heven]
        rw [Nat.mul_mod, hsq, ← Nat.mul_mod]

/-- `powMod` is exponentiation mod m, for every 384-bit exponent. -/
theorem powMod_eq (m b e : Nat) (he : e < 2 ^ 384) : powMod m b e = b ^ e % m := by
  rw [powMod, powLoop_eq m 384 _ e _ he (Nat.mod_mod _ _), Nat.mul_mod, Nat.mod_mod, ← Nat.pow_mod,
    ← Nat.mul_mod, one_mul]

/-! ### Halving -/

/-- `half` is half: twice it is the value, mod an odd m (R141). -/
theorem two_mul_half (m t : Nat) (hm : m % 2 = 1) : 2 * half m t % m = t % m := by
  unfold half
  split
  · rw [show 2 * (t / 2) = t by omega]
  · rw [show 2 * ((t + m) / 2) = t + m by omega, Nat.add_mod_right]

theorem half_lt (m t : Nat) (ht : t < m) : half m t < m := by
  unfold half
  split <;> omega

end Sys2Proof.Machine
end

