-- ==== Sys2Proof/Laws/Encoding.lean ====
section
/-! SUPPORT. The fields of an assembled word (R80): what each field of decode reads from it. -/

namespace Sys2Proof

-- One proof at a time: each thread that a proof runs in counts against the memory limit.
set_option Elab.async false

section

variable (op : Nat) (rd ra rb rc : Reg) (m zr : Nat) (imm : Imm) (hop : op < 256) (hm : m < 2) (hzr : zr < 2)

include hop hm hzr

/-- The value of an assembled word: its fields do not run into each other. -/
theorem toNat_assemble : (assemble op rd ra rb rc m zr imm).toNat =
    op + rd.toNat * 2 ^ 8 + ra.toNat * 2 ^ 12 + rb.toNat * 2 ^ 16 + rc.toNat * 2 ^ 20 + m * 2 ^ 24 + zr * 2 ^ 25 +
      imm.toNat * 2 ^ 32 := by
  have h1 := rd.isLt; have h2 := ra.isLt; have h3 := rb.isLt; have h4 := rc.isLt; have h5 := imm.isLt
  rw [assemble, BitVec.toNat_ofNat]
  omega

theorem fieldOp_assemble : fieldOp (assemble op rd ra rb rc m zr imm) = op := by
  have h1 := rd.isLt; have h2 := ra.isLt; have h3 := rb.isLt; have h4 := rc.isLt; have h5 := imm.isLt
  rw [fieldOp, slice, toNat_assemble op rd ra rb rc m zr imm hop hm hzr]
  omega

theorem fieldRd_assemble : fieldRd (assemble op rd ra rb rc m zr imm) = rd := by
  have h1 := rd.isLt; have h2 := ra.isLt; have h3 := rb.isLt; have h4 := rc.isLt; have h5 := imm.isLt
  rw [← BitVec.toNat_inj, fieldRd, slice, toNat_assemble op rd ra rb rc m zr imm hop hm hzr, BitVec.toNat_ofNat]
  omega

theorem fieldRa_assemble : fieldRa (assemble op rd ra rb rc m zr imm) = ra := by
  have h1 := rd.isLt; have h2 := ra.isLt; have h3 := rb.isLt; have h4 := rc.isLt; have h5 := imm.isLt
  rw [← BitVec.toNat_inj, fieldRa, slice, toNat_assemble op rd ra rb rc m zr imm hop hm hzr, BitVec.toNat_ofNat]
  omega

theorem fieldRb_assemble : fieldRb (assemble op rd ra rb rc m zr imm) = rb := by
  have h1 := rd.isLt; have h2 := ra.isLt; have h3 := rb.isLt; have h4 := rc.isLt; have h5 := imm.isLt
  rw [← BitVec.toNat_inj, fieldRb, slice, toNat_assemble op rd ra rb rc m zr imm hop hm hzr, BitVec.toNat_ofNat]
  omega

theorem fieldRc_assemble : fieldRc (assemble op rd ra rb rc m zr imm) = rc := by
  have h1 := rd.isLt; have h2 := ra.isLt; have h3 := rb.isLt; have h4 := rc.isLt; have h5 := imm.isLt
  rw [← BitVec.toNat_inj, fieldRc, slice, toNat_assemble op rd ra rb rc m zr imm hop hm hzr, BitVec.toNat_ofNat]
  omega

theorem fieldM_assemble : fieldM (assemble op rd ra rb rc m zr imm) = m := by
  have h1 := rd.isLt; have h2 := ra.isLt; have h3 := rb.isLt; have h4 := rc.isLt; have h5 := imm.isLt
  rw [fieldM, slice, toNat_assemble op rd ra rb rc m zr imm hop hm hzr]
  omega

theorem fieldZr_assemble : fieldZr (assemble op rd ra rb rc m zr imm) = zr := by
  have h1 := rd.isLt; have h2 := ra.isLt; have h3 := rb.isLt; have h4 := rc.isLt; have h5 := imm.isLt
  rw [fieldZr, slice, toNat_assemble op rd ra rb rc m zr imm hop hm hzr]
  omega

theorem fieldImm_assemble : fieldImm (assemble op rd ra rb rc m zr imm) = imm := by
  have h1 := rd.isLt; have h2 := ra.isLt; have h3 := rb.isLt; have h4 := rc.isLt; have h5 := imm.isLt
  rw [← BitVec.toNat_inj, fieldImm, slice, toNat_assemble op rd ra rb rc m zr imm hop hm hzr, BitVec.toNat_ofNat]
  omega

theorem reservedZero_assemble : reservedZero (assemble op rd ra rb rc m zr imm) = true := by
  have h1 := rd.isLt; have h2 := ra.isLt; have h3 := rb.isLt; have h4 := rc.isLt; have h5 := imm.isLt
  rw [reservedZero, slice, slice, toNat_assemble op rd ra rb rc m zr imm hop hm hzr, Bool.and_eq_true, beq_iff_eq,
    beq_iff_eq]
  omega

end

theorem modulusBit_lt (m : Modulus) : modulusBit m < 2 := by cases m <;> decide

theorem modulusOf_modulusBit (m : Modulus) : modulusOf (modulusBit m) = m := by cases m <;> rfl

end Sys2Proof
end

