-- ==== Sys2Proof/Laws/Memory.lean ====
section
/-! SUPPORT. BUF: every operation keeps the canonical form, a read after a write gives the byte written, a write
leaves every other byte alone, equal reads make equal canonical lists, and the big-endian strings of values. -/

namespace Sys2Proof.Machine

-- One proof at a time: each thread that a proof runs in counts against the memory limit.
set_option Elab.async false

/-! ### The canonical form -/

theorem Memory.wfFrom_cons (lo a : Nat) (b : Byte) (rest : Memory) :
    Memory.wfFrom lo ((a, b) :: rest) = true ↔
      lo ≤ a ∧ a < bufSize ∧ b ≠ bufDefault ∧ Memory.wfFrom (a + 1) rest = true := by
  simp [Memory.wfFrom, and_assoc]

theorem Memory.wfFrom_mono {m : Memory} {lo lo' : Nat} (h : lo' ≤ lo) (hm : Memory.wfFrom lo m = true) :
    Memory.wfFrom lo' m = true := by
  cases m with
  | nil => rfl
  | cons p rest =>
    rw [Memory.wfFrom_cons] at hm ⊢
    exact ⟨h.trans hm.1, hm.2⟩

theorem Memory.wfFrom_insert (k : Nat) (b : Byte) (hk : k < bufSize) :
    ∀ (m : Memory) (lo : Nat), lo ≤ k → Memory.wfFrom lo m = true → Memory.wfFrom lo (m.insert k b) = true
  | [], lo, hlo, _ => by
    unfold Memory.insert
    split
    · rfl
    · rw [Memory.wfFrom_cons]; exact ⟨hlo, hk, by assumption, rfl⟩
  | (a, x) :: rest, lo, hlo, hm => by
    rw [Memory.wfFrom_cons] at hm
    obtain ⟨h1, h2, h3, h4⟩ := hm
    unfold Memory.insert
    split
    · split
      · rw [Memory.wfFrom_cons]; exact ⟨h1, h2, h3, h4⟩
      · rw [Memory.wfFrom_cons, Memory.wfFrom_cons]
        exact ⟨hlo, hk, by assumption, by omega, h2, h3, h4⟩
    · split
      · split
        · exact Memory.wfFrom_mono (by omega) h4
        · rw [Memory.wfFrom_cons]
          exact ⟨hlo, hk, by assumption, by subst k; exact h4⟩
      · rw [Memory.wfFrom_cons]
        exact ⟨h1, h2, h3, Memory.wfFrom_insert k b hk rest (a + 1) (by omega) h4⟩

/-- A byte write keeps the canonical form. -/
theorem Memory.wf_write {m : Memory} (h : m.wf = true) (k : Nat) (b : Byte) : (m.write k b).wf = true := by
  unfold Memory.write
  split
  · exact Memory.wfFrom_insert k b (by assumption) m 0 (Nat.zero_le k) h
  · exact h

/-- A string write keeps the canonical form. -/
theorem Memory.wf_writeString {m : Memory} (h : m.wf = true) (off : Nat) (str : List Byte) :
    (m.writeString off str).wf = true := by
  induction str generalizing m off with
  | nil => exact h
  | cons b rest ih => exact ih (Memory.wf_write h off b) (off + 1)

/-! ### Reads after writes -/

/-- Below the lowest entry a byte reads as the default. -/
theorem Memory.read_below {m : Memory} {lo k : Nat} (hm : Memory.wfFrom lo m = true) (hk : k < lo) :
    m.read k = bufDefault := by
  cases m with
  | nil => rfl
  | cons p rest =>
    obtain ⟨a, b⟩ := p
    rw [Memory.wfFrom_cons] at hm
    unfold Memory.read
    rw [if_neg (by omega), if_pos (by omega)]

theorem Memory.read_insert_same (k : Nat) (b : Byte) :
    ∀ (m : Memory) (lo : Nat), Memory.wfFrom lo m = true → (m.insert k b).read k = b
  | [], _, _ => by
    unfold Memory.insert
    split
    · subst b; rfl
    · simp [Memory.read]
  | (a, x) :: rest, lo, hm => by
    rw [Memory.wfFrom_cons] at hm
    obtain ⟨_, _, _, h4⟩ := hm
    unfold Memory.insert
    split
    · split
      · subst b; unfold Memory.read; rw [if_neg (by omega), if_pos (by omega)]
      · simp [Memory.read]
    · split
      · split
        · subst b k; exact Memory.read_below h4 (Nat.lt_succ_self a)
        · simp [Memory.read]
      · unfold Memory.read
        rw [if_neg (by omega), if_neg (by omega)]
        exact Memory.read_insert_same k b rest (a + 1) h4

theorem Memory.read_insert_other (k j : Nat) (b : Byte) (hj : j ≠ k) :
    ∀ (m : Memory) (lo : Nat), Memory.wfFrom lo m = true → (m.insert k b).read j = m.read j
  | [], _, _ => by
    unfold Memory.insert
    split
    · rfl
    · simp [Memory.read, hj]
  | (a, x) :: rest, lo, hm => by
    rw [Memory.wfFrom_cons] at hm
    obtain ⟨_, _, _, h4⟩ := hm
    unfold Memory.insert
    split
    · split
      · rfl
      · by_cases h : j < k
        · have h1 : ¬ j = a := by omega
          have h2 : j < a := by omega
          simp [Memory.read, hj, h, h1, h2]
        · simp [Memory.read, hj, h]
    · split
      · split
        · by_cases h : j < k
          · rw [Memory.read_below h4 (by omega)]
            have h1 : ¬ j = a := by omega
            have h2 : j < a := by omega
            simp [Memory.read, h1, h2]
          · have h1 : ¬ j = a := by omega
            have h2 : ¬ j < a := by omega
            simp [Memory.read, h1, h2]
        · have h1 : ¬ j = a := by omega
          subst a
          simp [Memory.read, hj]
      · by_cases h : j = a
        · simp [Memory.read, h]
        · by_cases h' : j < a
          · simp [Memory.read, h, h']
          · have ih := Memory.read_insert_other k j b hj rest (a + 1) h4
            simp [Memory.read, h, h', ih]

/-- A read after a write of the same byte gives the byte written. -/
theorem Memory.read_write_same {m : Memory} (h : m.wf = true) (k : Nat) (b : Byte) (hk : k < bufSize) :
    (m.write k b).read k = b := by
  rw [Memory.write, if_pos hk]
  exact Memory.read_insert_same k b m 0 h

/-- A write leaves every other byte alone. -/
theorem Memory.read_write_other {m : Memory} (h : m.wf = true) (k j : Nat) (b : Byte) (hj : j ≠ k) :
    (m.write k b).read j = m.read j := by
  unfold Memory.write
  split
  · exact Memory.read_insert_other k j b hj m 0 h
  · rfl

/-- A string write leaves every byte outside the string alone. -/
theorem Memory.read_writeString_outside {m : Memory} (h : m.wf = true) (off j : Nat) (str : List Byte)
    (hj : j < off ∨ off + str.length ≤ j) : (m.writeString off str).read j = m.read j := by
  induction str generalizing m off with
  | nil => rfl
  | cons b rest ih =>
    simp only [List.length_cons] at hj
    rw [Memory.writeString, ih (Memory.wf_write h off b) (off + 1) (by omega)]
    exact Memory.read_write_other h off j b (by omega)

/-- A string write puts each byte of the string at its place. -/
theorem Memory.read_writeString_inside {m : Memory} (h : m.wf = true) (off t : Nat) (str : List Byte)
    (ht : t < str.length) (hoff : off + str.length ≤ bufSize) :
    (m.writeString off str).read (off + t) = str[t] := by
  induction str generalizing m off t with
  | nil => simp at ht
  | cons b rest ih =>
    simp only [List.length_cons] at ht hoff
    rw [Memory.writeString]
    cases t with
    | zero =>
      rw [Memory.read_writeString_outside (Memory.wf_write h off b) _ _ _ (by omega)]
      simpa using Memory.read_write_same h off b (by omega)
    | succ t =>
      have := ih (Memory.wf_write h off b) (off + 1) t (by omega) (by omega)
      rw [show off + (t + 1) = off + 1 + t by omega, this]
      simp

/-- A string read back after it is written. -/
theorem Memory.readString_writeString {m : Memory} (h : m.wf = true) (off : Nat) (str : List Byte)
    (hoff : off + str.length ≤ bufSize) : (m.writeString off str).readString off str.length = str := by
  apply List.ext_getElem
  · simp [Memory.readString]
  · intro t h1 h2
    simp only [Memory.readString, List.getElem_map, List.getElem_range]
    exact Memory.read_writeString_inside h off t str h2 hoff

/-- A string elsewhere reads as before. -/
theorem Memory.readString_writeString_disjoint {m : Memory} (h : m.wf = true) (off off' k : Nat) (str : List Byte)
    (hd : off' + k ≤ off ∨ off + str.length ≤ off') :
    (m.writeString off str).readString off' k = m.readString off' k := by
  apply List.map_congr_left
  intro t ht
  rw [List.mem_range] at ht
  exact Memory.read_writeString_outside h off _ str (by omega)

/-- Two canonical lists that read equal are equal. -/
theorem Memory.ext_of_wfFrom :
    ∀ (m m' : Memory) (lo : Nat), Memory.wfFrom lo m = true → Memory.wfFrom lo m' = true →
      (∀ k, m.read k = m'.read k) → m = m'
  | [], [], _, _, _, _ => rfl
  | [], (a, b) :: rest, lo, _, h', hr => by
    rw [Memory.wfFrom_cons] at h'
    have := hr a
    simp [Memory.read] at this
    exact absurd this.symm h'.2.2.1
  | (a, b) :: rest, [], lo, h, _, hr => by
    rw [Memory.wfFrom_cons] at h
    have := hr a
    simp [Memory.read] at this
    exact absurd this h.2.2.1
  | (a, b) :: rest, (a', b') :: rest', lo, h, h', hr => by
    rw [Memory.wfFrom_cons] at h h'
    obtain ⟨h1, h2, h3, h4⟩ := h
    obtain ⟨h1', h2', h3', h4'⟩ := h'
    have haa : a = a' := by
      rcases Nat.lt_trichotomy a a' with hlt | heq | hgt
      · have := hr a
        have hne : ¬ a = a' := by omega
        simp [Memory.read, hne, hlt] at this
        exact absurd this h3
      · exact heq
      · have := hr a'
        have hne : ¬ a' = a := by omega
        simp [Memory.read, hne, hgt] at this
        exact absurd this.symm h3'
    subst a'
    have hb : b = b' := by simpa [Memory.read] using hr a
    subst b'
    have : rest = rest' := by
      apply Memory.ext_of_wfFrom rest rest' (a + 1) h4 h4'
      intro k
      by_cases hk : k < a + 1
      · rw [Memory.read_below h4 hk, Memory.read_below h4' hk]
      · have := hr k
        have h5 : ¬ k = a := by omega
        have h6 : ¬ k < a := by omega
        simpa [Memory.read, h5, h6] using this
    rw [this]

/-- Equal memories are equal data: canonical lists that read equal are equal. -/
theorem Memory.ext {m m' : Memory} (h : m.wf = true) (h' : m'.wf = true) (hr : ∀ k, m.read k = m'.read k) :
    m = m' := Memory.ext_of_wfFrom m m' 0 h h' hr

/-! ### Big-endian strings -/

@[simp] theorem readString_length (m : Memory) (off k : Nat) : (m.readString off k).length = k := by
  simp [Memory.readString]

@[simp] theorem beBytes_length (k v : Nat) : (beBytes k v).length = k := by simp [beBytes]

@[simp] theorem be48_length (v : Nat) : (be48 v).length = 48 := by simp [be48]

theorem be_foldl (s : List Byte) (acc : Nat) :
    s.foldl (fun acc b => acc * 256 + b.toNat) acc = acc * 256 ^ s.length + be s := by
  induction s generalizing acc with
  | nil => simp [be]
  | cons b rest ih =>
    simp only [List.foldl_cons, be, List.length_cons]
    rw [ih, ih (0 * 256 + b.toNat)]
    ring

/-- The value of a string is its first byte's place plus the rest. -/
theorem be_cons (b : Byte) (rest : List Byte) : be (b :: rest) = b.toNat * 256 ^ rest.length + be rest := by
  conv_lhs => rw [be, List.foldl_cons]
  rw [be_foldl]
  simp

theorem be_append_singleton (s : List Byte) (b : Byte) : be (s ++ [b]) = be s * 256 + b.toNat := by
  simp [be]

/-- A string's value is below 256 to its length. -/
theorem be_lt (s : List Byte) : be s < 256 ^ s.length := by
  induction s with
  | nil => simp [be]
  | cons b rest ih =>
    rw [be_cons, List.length_cons, pow_succ]
    have := b.isLt
    nlinarith [Nat.pow_pos (n := rest.length) (show 0 < 256 by norm_num)]

theorem beBytes_succ (k v : Nat) : beBytes (k + 1) v = beBytes k (v / 256) ++ [BitVec.ofNat 8 v] := by
  rw [beBytes, List.range_succ, List.map_append]
  congr 1
  · apply List.map_congr_left
    intro t ht
    rw [List.mem_range] at ht
    rw [Nat.div_div_eq_div_mul, ← pow_succ', show k + 1 - 1 - t = k - 1 - t + 1 by omega]
  · simp

/-- The k-byte string of a value has that value, cut to k bytes. -/
theorem be_beBytes (k v : Nat) : be (beBytes k v) = v % 256 ^ k := by
  induction k generalizing v with
  | zero => simp [beBytes, be, Nat.mod_one]
  | succ k ih =>
    have h : v % 256 ^ (k + 1) = v % 256 + 256 * (v / 256 % 256 ^ k) := by rw [pow_succ', Nat.mod_mul]
    rw [beBytes_succ, be_append_singleton, ih, BitVec.toNat_ofNat, h]
    omega

theorem beBytes_be (s : List Byte) : beBytes s.length (be s) = s := by
  induction s using List.reverseRecOn with
  | nil => simp [beBytes]
  | append_singleton s b ih =>
    rw [List.length_append, List.length_singleton, beBytes_succ, be_append_singleton]
    have h1 : (be s * 256 + b.toNat) / 256 = be s := by have := b.isLt; omega
    have h2 : BitVec.ofNat 8 (be s * 256 + b.toNat) = b := by
      apply BitVec.eq_of_toNat_eq
      have := b.isLt
      rw [BitVec.toNat_ofNat]
      omega
    rw [h1, h2, ih]

/-- `be48` undoes `be` (R60). -/
theorem be_be48 (v : Nat) (h : v < 256 ^ 48) : be (be48 v) = v := by
  rw [be48, be_beBytes, Nat.mod_eq_of_lt h]

theorem State.bufInt_lt (s : State) (off : Nat) : s.bufInt off < 256 ^ 48 := by
  simpa [State.bufInt] using be_lt (s.buf.readString off 48)

end Sys2Proof.Machine
end

