-- ==== Sys2Proof/Laws/Registers.lean ====
section
/-! SUPPORT. Reading registers after writing them, and what each destination form writes. -/

namespace Sys2Proof.Machine

-- One proof at a time: each thread that a proof runs in counts against the memory limit.
set_option Elab.async false

set_option exponentiation.threshold 1000

@[simp] theorem State.readV_writeV_same (s : State) (i : Nat) (x : Vli) (h : i < 16) :
    (s.writeV i x).readV i = x := by
  simp [State.readV, State.writeV, h]

@[simp] theorem State.readV_writeV_other (s : State) (i j : Nat) (x : Vli) (h : i ≠ j) :
    (s.writeV i x).readV j = s.readV j := by
  simp [State.readV, State.writeV, h]

theorem State.readV_writeV (s : State) (i j : Nat) (x : Vli) (h : j < 16) :
    (s.writeV i x).readV j = if i = j then x else s.readV j := by
  split
  · subst i; exact s.readV_writeV_same j x h
  · exact s.readV_writeV_other i j x (by assumption)

/-- A register index past V15 reads as nothing: no register is there. -/
theorem State.readV_beyond (s : State) (i : Nat) (h : 16 ≤ i) : s.readV i = 0 := by
  simp [State.readV, Vector.getElem?_eq_none h]

/-- Equal files are files that read equal. -/
theorem State.v_ext (s t : State) (h : ∀ j, j < 16 → s.readV j = t.readV j) : s.v = t.v := by
  apply Vector.ext
  intro i hi
  have := h i hi
  simpa [State.readV, hi] using this

/-- A register reads the same in two states with the same file. -/
theorem State.readV_congr (s t : State) (h : s.v = t.v) (j : Nat) : s.readV j = t.readV j := by
  simp [State.readV, h]

theorem reg_lt (r : Reg) : r.toNat < 16 := r.isLt

/-! ### Destination forms -/

theorem State.dst_eq_writeV (s : State) (r : Reg) (x : Nat) :
    s.dst r x = s.writeV r.toNat (BitVec.ofNat 384 x) := rfl

theorem State.readV_dst (s : State) (r : Reg) (x j : Nat) (h : j < 16) :
    (s.dst r x).readV j = if r.toNat = j then BitVec.ofNat 384 x else s.readV j :=
  s.readV_writeV _ _ _ h

theorem State.readV_dstAt (s : State) (r : Reg) (k x j : Nat) (h : j < 16) :
    (s.dstAt r k x).readV j = if r.toNat + k = j then BitVec.ofNat 384 x else s.readV j :=
  s.readV_writeV _ _ _ h

theorem State.readV_dstWide (s : State) (r : Reg) (x j : Nat) (h : j < 16) :
    (s.dstWide r x).readV j =
      if r.toNat + 1 = j then BitVec.ofNat 384 (x / 2 ^ 384)
      else if r.toNat = j then BitVec.ofNat 384 x else s.readV j := by
  simp [State.dstWide, State.readV_dstAt, h]

theorem State.readV_dstPair (s : State) (r : Reg) (xy : Nat × Nat) (j : Nat) (h : j < 16) :
    (s.dstPair r xy).readV j =
      if r.toNat + 1 = j then BitVec.ofNat 384 xy.2
      else if r.toNat = j then BitVec.ofNat 384 xy.1 else s.readV j := by
  simp [State.dstPair, State.readV_dstAt, h]

theorem State.readV_dstTriple (s : State) (r : Reg) (xyz : Nat × Nat × Nat) (j : Nat) (h : j < 16) :
    (s.dstTriple r xyz).readV j =
      if r.toNat + 2 = j then BitVec.ofNat 384 xyz.2.2
      else if r.toNat + 1 = j then BitVec.ofNat 384 xyz.2.1
      else if r.toNat = j then BitVec.ofNat 384 xyz.1 else s.readV j := by
  simp [State.dstTriple, State.readV_dstAt, h]

theorem State.readV_dstPairAt (s : State) (r : Reg) (k : Nat) (xy : Nat × Nat) (j : Nat) (h : j < 16) :
    (s.dstPairAt r k xy).readV j =
      if r.toNat + (k + 1) = j then BitVec.ofNat 384 xy.2
      else if r.toNat + k = j then BitVec.ofNat 384 xy.1 else s.readV j := by
  simp [State.dstPairAt, State.readV_dstAt, h]

/-! ### Updates that leave V alone -/

@[simp] theorem State.readV_complete (s : State) (code : ErrCode) (count j : Nat) :
    (s.complete code count).readV j = s.readV j := rfl

@[simp] theorem State.readV_setZ (s : State) (b : Bool) (j : Nat) : (s.setZ b).readV j = s.readV j := rfl

@[simp] theorem State.readV_setC (s : State) (b : Bool) (j : Nat) : (s.setC b).readV j = s.readV j := rfl

@[simp] theorem State.readV_setCmp (s : State) (x : BitVec 2) (j : Nat) : (s.setCmp x).readV j = s.readV j := rfl

@[simp] theorem State.readV_setBit (s : State) (b : Bool) (j : Nat) : (s.setBit b).readV j = s.readV j := rfl

@[simp] theorem State.readV_setVok (s : State) (b : Bool) (j : Nat) : (s.setVok b).readV j = s.readV j := rfl

@[simp] theorem State.readV_writeBuf (s : State) (off : Nat) (str : List Byte) (j : Nat) :
    (s.writeBuf off str).readV j = s.readV j := rfl

end Sys2Proof.Machine
end

