-- ==== Sys2Proof/Laws/Ops.lean ====
section
/-! SUPPORT. What each shared operation of a meaning can answer: the operand checks, the range check, completion,
and a sampling loop. -/

namespace Sys2Proof.Machine

-- One proof at a time: each thread that a proof runs in counts against the memory limit.
set_option Elab.async false

/-! ### Completion -/

theorem succeed_eq (count : Nat) (s : State) : succeed count s = .next (s.complete .ok count) := rfl

theorem raise_eq (code : ErrCode) (count : Nat) (s : State) : raise code count s = .next (s.complete code count) :=
  rfl

theorem awaitEntropy_eq (s : State) : awaitEntropy s = .next { s with entReady := true } := rfl

/-! ### The checks before an effect -/

theorem guarded_of_wellFormed {i : Instr} (h : i.wellFormed = true) (s : State)
    (effect : Host.Outcome State Fault Refusal) : guarded i s effect = effect := if_pos h

theorem guarded_of_illFormed {i : Instr} (h : i.wellFormed = false) (s : State)
    (effect : Host.Outcome State Fault Refusal) :
    guarded i s effect = .next (s.complete .illegalOperand 0) := by
  simp [guarded, h, raise]

/-- What `guarded` can answer: the effect's answer, or ILLEGAL_OPERAND. -/
theorem guarded_cases {i : Instr} {s t : State} {effect : Host.Outcome State Fault Refusal}
    (h : guarded i s effect = .next t) :
    (i.wellFormed = true ∧ effect = .next t) ∨
      (i.wellFormed = false ∧ t = s.complete .illegalOperand 0) := by
  cases hw : i.wellFormed with
  | true => exact .inl ⟨rfl, by rwa [guarded_of_wellFormed hw] at h⟩
  | false =>
    rw [guarded_of_illFormed hw] at h
    exact .inr ⟨rfl, (Host.Outcome.next.inj h).symm⟩

theorem reduced_of_lt {m : Nat} {values : List Nat} (h : ∀ x ∈ values, x < m) (s : State)
    (effect : Host.Outcome State Fault Refusal) : reduced m values s effect = effect := by
  rw [reduced, if_pos]
  simpa using h

theorem reduced_of_ge {m : Nat} {values : List Nat} (h : ∃ x ∈ values, m ≤ x) (s : State)
    (effect : Host.Outcome State Fault Refusal) : reduced m values s effect = .next (s.complete .range 0) := by
  rw [reduced, if_neg]
  · rfl
  · simpa using h

/-- What `reduced` can answer: the effect's answer on reduced values, or RANGE. -/
theorem reduced_cases {m : Nat} {values : List Nat} {s t : State} {effect : Host.Outcome State Fault Refusal}
    (h : reduced m values s effect = .next t) :
    ((∀ x ∈ values, x < m) ∧ effect = .next t) ∨
      ((∃ x ∈ values, m ≤ x) ∧ t = s.complete .range 0) := by
  by_cases hv : ∀ x ∈ values, x < m
  · exact .inl ⟨hv, by rwa [reduced_of_lt hv] at h⟩
  · have hv' : ∃ x ∈ values, m ≤ x := by simpa using hv
    rw [reduced_of_ge hv'] at h
    exact .inr ⟨hv', (Host.Outcome.next.inj h).symm⟩

/-! ### Sampling -/

theorem sample_nil {α : Type} (keep : Nat → Option α) (count : Nat) :
    sample keep [] count = if count = Config.maxDraws then .exhausted count else .waiting := rfl

theorem sample_cons {α : Type} (keep : Nat → Option α) (c : Nat) (rest : List Nat) (count : Nat) :
    sample keep (c :: rest) count =
      if count = Config.maxDraws then .exhausted count
      else match keep c with
        | some a => .kept a (count + 1)
        | none => sample keep rest (count + 1) := rfl

/-- A kept candidate: the loop kept one of the candidates, it is counted, and the count is within the budget. -/
theorem sample_kept {α : Type} {keep : Nat → Option α} {a : α} {k : Nat} :
    ∀ {cs : List Nat} {count : Nat}, count ≤ Config.maxDraws → sample keep cs count = .kept a k →
      count < k ∧ k ≤ Config.maxDraws ∧ k ≤ count + cs.length ∧ ∃ c ∈ cs, keep c = some a
  | [], count, _, h => by
    rw [sample_nil] at h
    split at h <;> cases h
  | c :: rest, count, hc, h => by
    rw [sample_cons] at h
    split at h
    · cases h
    · split at h
      · rename_i b hb
        cases h
        exact ⟨by omega, by omega, by rw [List.length_cons]; omega, c, by simp, hb⟩
      · obtain ⟨h1, h2, h3, x, hx, hk⟩ := sample_kept (by omega) h
        exact ⟨by omega, h2, by rw [List.length_cons]; omega, x, by simp [hx], hk⟩

/-- An exhausted budget is a count of MAX_DRAWS. -/
theorem sample_exhausted {α : Type} {keep : Nat → Option α} {k : Nat} :
    ∀ {cs : List Nat} {count : Nat}, sample keep cs count = .exhausted k → k = Config.maxDraws
  | [], count, h => by
    rw [sample_nil] at h
    split at h
    · cases h; assumption
    · cases h
  | c :: rest, count, h => by
    rw [sample_cons] at h
    split at h
    · cases h; assumption
    · split at h
      · cases h
      · exact sample_exhausted h

/-- A loop that waits has used up its candidates and not its budget. -/
theorem sample_waiting {α : Type} {keep : Nat → Option α} :
    ∀ {cs : List Nat} {count : Nat}, count ≤ Config.maxDraws → sample keep cs count = .waiting →
      count + cs.length < Config.maxDraws ∧ ∀ c ∈ cs, keep c = none
  | [], count, hc, h => by
    rw [sample_nil] at h
    split at h
    · cases h
    · exact ⟨by simp; omega, by simp⟩
  | c :: rest, count, hc, h => by
    rw [sample_cons] at h
    split at h
    · cases h
    · split at h
      · cases h
      · rename_i hn
        obtain ⟨h1, h2⟩ := sample_waiting (by omega) h
        exact ⟨by simp; omega, by simpa [hn] using h2⟩

theorem candidates_length : ∀ (ws : List Word64), (candidates ws).length = ws.length / 6
  | [] => rfl
  | [_] => by simp [candidates]
  | [_, _] => by simp [candidates]
  | [_, _, _] => by simp [candidates]
  | [_, _, _, _] => by simp [candidates]
  | [_, _, _, _, _] => by simp [candidates]
  | _ :: _ :: _ :: _ :: _ :: _ :: rest => by
    simp only [candidates, List.length_cons, candidates_length rest]
    omega

/-- What a drawing command can answer after its sampling. -/
theorem afterSampling_cases {α : Type} {r : Sampled α} {s t : State}
    {onKept : α → Nat → Host.Outcome State Fault Refusal} (h : afterSampling r s onKept = .next t) :
    (∃ a k, r = .kept a k ∧ onKept a k = .next t) ∨
      (∃ k, r = .exhausted k ∧ t = s.complete .randomExhausted k) ∨
      (r = .waiting ∧ t = { s with entReady := true }) := by
  cases r with
  | kept a k => exact .inl ⟨a, k, rfl, h⟩
  | exhausted k => exact .inr (.inl ⟨k, rfl, (Host.Outcome.next.inj h).symm⟩)
  | waiting => exact .inr (.inr ⟨rfl, (Host.Outcome.next.inj h).symm⟩)

/-! ### What needing a word depends on -/

/-- Whether a word is needed depends on CMD, BUF and the words taken alone. Cite this rather than let unification
unfold the decoder and the square root. -/
theorem State.needsWord_congr {s t : State} (hc : t.cmd = s.cmd) (hb : t.buf = s.buf) (he : t.entropy = s.entropy) :
    t.needsWord = s.needsWord := by
  have hint : ∀ off, t.bufInt off = s.bufInt off := fun off => by rw [State.bufInt, State.bufInt, hb]
  have hsec : t.secret = s.secret := by rw [State.secret, State.secret, hint]
  have hkey : t.keygenSample = s.keygenSample := by rw [State.keygenSample, State.keygenSample, he]
  have hsig : ∀ d, t.signSample d = s.signSample d := fun d => by
    rw [State.signSample, State.signSample, hint, he]
  have hdec : ∀ off, t.decompressAt off = s.decompressAt off := fun off => by
    rw [State.decompressAt, State.decompressAt, hint, hb]
  have hbl : t.blindSample = s.blindSample := by rw [State.blindSample, State.blindSample, he]
  simp only [State.needsWord, hc, hsec, hkey, hsig, hdec, hbl]

end Sys2Proof.Machine
end

