-- ==== Sys2Proof/Laws/Exec.lean ====
section
/-! SUPPORT. What running a command can end in, said once for every command. -/

namespace Sys2Proof.Machine

-- One proof at a time: each thread that a proof runs in counts against the memory limit.
set_option Elab.async false

/-- A success or an error from a state that agrees with `s` on what only completion and the host write is a
completion of `s`. -/
theorem State.completesTo_complete {s s' : State} (code : ErrCode) (count : Nat) (hcount : count < 2 ^ 64)
    (h1 : s'.ien = s.ien) (h2 : s'.ovr = s.ovr) (h3 : s'.cmd = s.cmd) (h4 : s'.rst = s.rst)
    (h5 : s'.rdata = s.rdata) (h6 : s'.reads = s.reads) (h7 : s'.env = s.env) :
    s.CompletesTo (s'.complete code count) code count where
  err := rfl
  draws := by rw [State.complete_draws, BitVec.toNat_ofNat, Nat.mod_eq_of_lt hcount]
  phase := rfl
  done := rfl
  entropy := rfl
  entReady := rfl
  irq := by simp [State.complete, State.driveIrq, h1]
  ien := h1
  ovr := h2
  cmd := h3
  rst := h4
  rdata := h5
  reads := h6
  env := h7

/-- An error completion commits nothing. -/
theorem State.failsTo_complete (s : State) (code : ErrCode) (count : Nat) (hcount : count < 2 ^ 64) :
    s.FailsTo (s.complete code count) code count :=
  ⟨State.completesTo_complete code count hcount rfl rfl rfl rfl rfl rfl rfl, rfl, rfl, rfl, rfl, rfl, rfl, rfl⟩

/-- What a command leaves of the state before completion: everything but V, BUF and the flags, and BUF in canonical
form. -/
structure State.Precedes (s s' : State) : Prop where
  phase : s'.phase = s.phase
  ien : s'.ien = s.ien
  ovr : s'.ovr = s.ovr
  cmd : s'.cmd = s.cmd
  rst : s'.rst = s.rst
  rdata : s'.rdata = s.rdata
  reads : s'.reads = s.reads
  env : s'.env = s.env
  wf : s.buf.wf = true → s'.buf.wf = true

/-- An update of V and the flags alone precedes a completion. -/
theorem State.precedes_of_v (s : State) (v : Vector Vli 16) (z c : Bool) (cmp : BitVec 2) (bit vok : Bool) :
    s.Precedes { s with v := v, z := z, c := c, cmp := cmp, bit := bit, vok := vok } :=
  ⟨rfl, rfl, rfl, rfl, rfl, rfl, rfl, rfl, id⟩

theorem State.precedes_self (s : State) : s.Precedes s := ⟨rfl, rfl, rfl, rfl, rfl, rfl, rfl, rfl, id⟩

/-- A write to BUF precedes a completion. -/
theorem State.Precedes.writeBuf {s s' : State} (h : s.Precedes s') (off : Nat) (str : List Byte) :
    s.Precedes (s'.writeBuf off str) :=
  ⟨h.phase, h.ien, h.ovr, h.cmd, h.rst, h.rdata, h.reads, h.env, fun hw => Memory.wf_writeString (h.wf hw) off str⟩

/-- What running a command on `s` can answer: a completion, with a code and a count of at most MAX_DRAWS, from a state
that differs from `s` by V, BUF and the flags alone, or, where `waits`, ent_ready raised and nothing else. -/
def State.Answers (s : State) (waits : Bool) (o : Host.Outcome State Fault Refusal) : Prop :=
  (∃ s' code count, s.Precedes s' ∧ count ≤ Config.maxDraws ∧ o = .next (s'.complete code count)) ∨
    (waits = true ∧ o = .next { s with entReady := true })

theorem State.answers_succeed {s s' : State} {waits : Bool} {count : Nat} (h : s.Precedes s')
    (hc : count ≤ Config.maxDraws) : s.Answers waits (succeed count s') := .inl ⟨s', .ok, count, h, hc, rfl⟩

theorem State.answers_raise {s s' : State} {waits : Bool} {code : ErrCode} {count : Nat} (h : s.Precedes s')
    (hc : count ≤ Config.maxDraws) : s.Answers waits (raise code count s') := .inl ⟨s', code, count, h, hc, rfl⟩

theorem State.answers_ite {s : State} {waits : Bool} {p : Prop} [Decidable p] {o o' : Host.Outcome State Fault Refusal}
    (h : s.Answers waits o) (h' : s.Answers waits o') : s.Answers waits (if p then o else o') := by
  split
  · exact h
  · exact h'

theorem State.answers_guarded {s : State} {waits : Bool} {i : Instr} {o : Host.Outcome State Fault Refusal}
    (h : s.Answers waits o) : s.Answers waits (guarded i s o) :=
  State.answers_ite h (State.answers_raise s.precedes_self (Nat.zero_le _))

theorem State.answers_reduced {s : State} {waits : Bool} {m : Nat} {values : List Nat}
    {o : Host.Outcome State Fault Refusal} (h : s.Answers waits o) : s.Answers waits (reduced m values s o) :=
  State.answers_ite h (State.answers_raise s.precedes_self (Nat.zero_le _))

theorem State.answers_sample {s : State} {α : Type} {keep : Nat → Option α} {cs : List Nat}
    {onKept : α → Nat → Host.Outcome State Fault Refusal}
    (h : ∀ a count, count ≤ Config.maxDraws → s.Answers true (onKept a count)) :
    s.Answers true (afterSampling (sample keep cs 0) s onKept) := by
  cases hs : sample keep cs 0 with
  | kept a k => exact h a k (sample_kept (Nat.zero_le _) hs).2.1
  | exhausted k => exact State.answers_raise s.precedes_self (sample_exhausted hs).le
  | waiting => exact .inr ⟨rfl, rfl⟩

/-- What each command can answer. -/
theorem exec_answers (i : Instr) (s : State) : s.Answers (drawsEntropy i) (exec i s) := by
  have z : 0 ≤ Config.maxDraws := Nat.zero_le _
  have ofV : ∀ v z c cmp bit vok, s.Answers false
      (succeed 0 { s with v := v, z := z, c := c, cmp := cmp, bit := bit, vok := vok }) :=
    fun _ _ _ _ _ _ => State.answers_succeed (s.precedes_of_v _ _ _ _ _ _) z
  have wf : ∀ off str, s.Precedes (s.writeBuf off str) := fun off str => s.precedes_self.writeBuf off str
  cases i with
  | nop => exact State.answers_succeed s.precedes_self z
  | zeroize => exact State.answers_succeed ⟨rfl, rfl, rfl, rfl, rfl, rfl, rfl, rfl, fun _ => rfl⟩ z
  | ldc => exact State.answers_guarded (ofV _ _ _ _ _ _)
  | vset => exact ofV _ _ _ _ _ _
  | viszero => exact ofV _ _ _ _ _ _
  | vtestbit => exact State.answers_guarded (ofV _ _ _ _ _ _)
  | vnumbits => exact ofV _ _ _ _ _ _
  | vcmp => exact ofV _ _ _ _ _ _
  | vlshift1 => exact ofV _ _ _ _ _ _
  | vrshift1 => exact ofV _ _ _ _ _ _
  | vadd => exact ofV _ _ _ _ _ _
  | vsub => exact ofV _ _ _ _ _ _
  | vmul => exact State.answers_guarded (ofV _ _ _ _ _ _)
  | vsqr => exact State.answers_guarded (ofV _ _ _ _ _ _)
  | modadd => exact State.answers_reduced (ofV _ _ _ _ _ _)
  | modsub => exact State.answers_reduced (ofV _ _ _ _ _ _)
  | modmul => exact State.answers_reduced (ofV _ _ _ _ _ _)
  | modsqr => exact State.answers_reduced (ofV _ _ _ _ _ _)
  | redp => exact State.answers_guarded (ofV _ _ _ _ _ _)
  | modinv => exact State.answers_reduced (ofV _ _ _ _ _ _)
  | modsqrt => exact State.answers_reduced (ofV _ _ _ _ _ _)
  | jdbl =>
    exact State.answers_guarded (State.answers_reduced
      (State.answers_ite (State.answers_succeed s.precedes_self z) (ofV _ _ _ _ _ _)))
  | applyz => exact State.answers_guarded (State.answers_reduced (ofV _ _ _ _ _ _))
  | cozadd => exact State.answers_guarded (State.answers_reduced (ofV _ _ _ _ _ _))
  | cozaddc => exact State.answers_guarded (State.answers_reduced (ofV _ _ _ _ _ _))
  | lstep => exact State.answers_guarded (State.answers_reduced (ofV _ _ _ _ _ _))
  | smul =>
    exact State.answers_guarded (State.answers_reduced
      (State.answers_ite (State.answers_raise s.precedes_self z)
        (State.answers_ite (State.answers_raise s.precedes_self z) (ofV _ _ _ _ _ _))))
  | loadb => exact State.answers_guarded (ofV _ _ _ _ _ _)
  | storeb => exact State.answers_guarded (State.answers_succeed (wf _ _) z)
  | pcomp => exact State.answers_guarded (State.answers_succeed (wf _ _) z)
  | pdecomp rd imm =>
    refine State.answers_guarded ?_
    cases s.decompressAt imm.toNat with
    | none => exact State.answers_raise s.precedes_self z
    | some xy => exact ofV _ _ _ _ _ _
  | keygen =>
    exact State.answers_sample fun _ _ hc =>
      State.answers_succeed ((wf _ _).writeBuf _ _) hc
  | sign =>
    rw [exec, execSign]
    cases s.secret with
    | none => exact State.answers_raise s.precedes_self z
    | some d =>
      exact State.answers_sample fun _ _ hc =>
        State.answers_succeed ((wf _ _).writeBuf _ _) hc
  | verify =>
    rw [exec, execVerify]
    cases s.decompressAt pubOff with
    | none => exact State.answers_raise (s.precedes_of_v _ _ _ _ _ _) z
    | some xy => exact ofV _ _ _ _ _ _
  | ecdh =>
    rw [exec, execEcdh]
    cases s.secret with
    | none => exact State.answers_raise s.precedes_self z
    | some d =>
      cases s.decompressAt pubOff with
      | none => exact State.answers_raise s.precedes_self z
      | some xy =>
        refine State.answers_sample fun _ _ hc => ?_
        cases Point.mul d (.affine xy.1 xy.2) with
        | infinity => exact State.answers_raise s.precedes_self hc
        | affine sx sy => exact State.answers_succeed (wf _ _) hc

/-- A command that answers a next state has completed, from a state that differs from the one it started in by V, BUF
and the flags alone, or, for a drawing command, waits with ent_ready up. -/
theorem exec_cases {i : Instr} {s t : State} (h : exec i s = .next t) :
    (∃ s' code count, s.Precedes s' ∧ count ≤ Config.maxDraws ∧ t = s'.complete code count) ∨
      (drawsEntropy i = true ∧ t = { s with entReady := true }) := by
  obtain ⟨s', code, count, hp, hc, he⟩ | ⟨hw, he⟩ := exec_answers i s
  · exact .inl ⟨s', code, count, hp, hc, Host.Outcome.next.inj (h.symm.trans he)⟩
  · exact .inr ⟨hw, Host.Outcome.next.inj (h.symm.trans he)⟩

end Sys2Proof.Machine
end

