-- ==== Sys2Proof/Laws/Field.lean ====
section
/-! SUPPORT. The field expressions of R160 are the ring operations of Z/p: each operation's value is reduced, and
its class mod p is the operation on the classes of its operands. -/

namespace Sys2Proof.Machine

-- One proof at a time: each thread that a proof runs in counts against the memory limit.
set_option Elab.async false

theorem fadd_lt (a b : Nat) : fadd a b < fieldPrime := Nat.mod_lt _ fieldPrime_pos

theorem fsub_lt (a b : Nat) : fsub a b < fieldPrime := Nat.mod_lt _ fieldPrime_pos

theorem fmul_lt (a b : Nat) : fmul a b < fieldPrime := Nat.mod_lt _ fieldPrime_pos

theorem fsqr_lt (a : Nat) : fsqr a < fieldPrime := fmul_lt a a

theorem fhalf_lt (t : Nat) : fhalf t < fieldPrime := half_lt _ _ (Nat.mod_lt _ fieldPrime_pos)

theorem curveRhs_lt (x : Nat) : curveRhs x < fieldPrime := fsub_lt _ _

@[simp] theorem cast_fadd (a b : Nat) : ((fadd a b : Nat) : ZMod fieldPrime) = a + b := by
  simp [fadd]

@[simp] theorem cast_fsub (a b : Nat) : ((fsub a b : Nat) : ZMod fieldPrime) = a - b := by
  have h : b % fieldPrime ≤ fieldPrime := (Nat.mod_lt _ fieldPrime_pos).le
  simp [fsub, Nat.cast_sub h, sub_eq_add_neg]

@[simp] theorem cast_fmul (a b : Nat) : ((fmul a b : Nat) : ZMod fieldPrime) = a * b := by
  simp [fmul]

@[simp] theorem cast_fsqr (a : Nat) : ((fsqr a : Nat) : ZMod fieldPrime) = a ^ 2 := by
  simp [fsqr, pow_two]

theorem two_mul_cast_fhalf (t : Nat) : (2 : ZMod fieldPrime) * ((fhalf t : Nat) : ZMod fieldPrime) = t := by
  have h := two_mul_half fieldPrime (t % fieldPrime) (by decide)
  have h2 : ((2 * half fieldPrime (t % fieldPrime) : Nat) : ZMod fieldPrime) = ((t % fieldPrime : Nat) : ZMod fieldPrime) :=
    (ZMod.natCast_eq_natCast_iff _ _ _).2 h
  rw [ZMod.natCast_mod] at h2
  simpa [fhalf] using h2

@[simp] theorem cast_curveRhs (x : Nat) :
    ((curveRhs x : Nat) : ZMod fieldPrime) = x ^ 3 + curveB - 3 * x := by
  simp only [curveRhs, cast_fsub, cast_fadd, cast_fmul, cast_fsqr]
  push_cast
  ring

/-- Reduced values with the same class mod p are equal. -/
theorem eq_of_cast_eq {a b : Nat} (ha : a < fieldPrime) (hb : b < fieldPrime)
    (h : (a : ZMod fieldPrime) = (b : ZMod fieldPrime)) : a = b := by
  have := (ZMod.natCast_eq_natCast_iff a b fieldPrime).1 h
  rwa [Nat.ModEq, Nat.mod_eq_of_lt ha, Nat.mod_eq_of_lt hb] at this

end Sys2Proof.Machine
end

