-- ==== Sys2Proof/Laws/PerInstr.lean ====
section
/-! SUPPORT. Statements made of every command, one lemma a command: the low byte of a command's word is the opcode of
its row in R87. -/

namespace Sys2Proof.Laws.OpcodeByte

-- One proof at a time: each thread that a proof runs in counts against the memory limit.
set_option Elab.async false

/-- The opcode of a command's row (R87). -/
def opcodeOf : Instr → Nat
  | .nop => 0x00
  | .zeroize => 0x01
  | .ldc _ _ => 0x02
  | .vset _ _ => 0x08
  | .viszero _ => 0x09
  | .vtestbit _ _ => 0x0A
  | .vnumbits _ _ => 0x0B
  | .vcmp _ _ => 0x0C
  | .vlshift1 _ _ => 0x0D
  | .vrshift1 _ _ => 0x0E
  | .vadd _ _ _ => 0x0F
  | .vsub _ _ _ => 0x10
  | .vmul _ _ _ => 0x11
  | .vsqr _ _ => 0x12
  | .modadd _ _ _ _ => 0x20
  | .modsub _ _ _ _ => 0x21
  | .modmul _ _ _ _ => 0x22
  | .modsqr _ _ _ => 0x23
  | .redp _ _ => 0x24
  | .modinv _ _ _ => 0x25
  | .modsqrt _ _ => 0x26
  | .jdbl _ => 0x30
  | .applyz _ _ => 0x31
  | .cozadd _ _ => 0x32
  | .cozaddc _ _ => 0x33
  | .lstep _ _ => 0x38
  | .smul _ _ _ _ => 0x39
  | .loadb _ _ => 0x40
  | .storeb _ _ => 0x41
  | .pcomp _ _ => 0x42
  | .pdecomp _ _ => 0x43
  | .keygen => 0x50
  | .sign => 0x51
  | .verify => 0x52
  | .ecdh => 0x53

/-- The word of the command carries its opcode in bits 7:0 (R80). -/
def Statement (i : Instr) : Prop := fieldOp (encode i) = opcodeOf i

theorem nop : Statement .nop :=
  fieldOp_assemble _ _ _ _ _ _ _ _ (by decide) (by decide) (by decide)

theorem zeroize : Statement .zeroize :=
  fieldOp_assemble _ _ _ _ _ _ _ _ (by decide) (by decide) (by decide)

theorem ldc (rd : Reg) (imm : Imm) : Statement (.ldc rd imm) :=
  fieldOp_assemble _ _ _ _ _ _ _ _ (by decide) (by decide) (by decide)

theorem vset (rd : Reg) (ra : Reg) : Statement (.vset rd ra) :=
  fieldOp_assemble _ _ _ _ _ _ _ _ (by decide) (by decide) (by decide)

theorem viszero (ra : Reg) : Statement (.viszero ra) :=
  fieldOp_assemble _ _ _ _ _ _ _ _ (by decide) (by decide) (by decide)

theorem vtestbit (ra : Reg) (imm : Imm) : Statement (.vtestbit ra imm) :=
  fieldOp_assemble _ _ _ _ _ _ _ _ (by decide) (by decide) (by decide)

theorem vnumbits (rd : Reg) (ra : Reg) : Statement (.vnumbits rd ra) :=
  fieldOp_assemble _ _ _ _ _ _ _ _ (by decide) (by decide) (by decide)

theorem vcmp (ra : Reg) (rb : Reg) : Statement (.vcmp ra rb) :=
  fieldOp_assemble _ _ _ _ _ _ _ _ (by decide) (by decide) (by decide)

theorem vlshift1 (rd : Reg) (ra : Reg) : Statement (.vlshift1 rd ra) :=
  fieldOp_assemble _ _ _ _ _ _ _ _ (by decide) (by decide) (by decide)

theorem vrshift1 (rd : Reg) (ra : Reg) : Statement (.vrshift1 rd ra) :=
  fieldOp_assemble _ _ _ _ _ _ _ _ (by decide) (by decide) (by decide)

theorem vadd (rd : Reg) (ra : Reg) (rb : Reg) : Statement (.vadd rd ra rb) :=
  fieldOp_assemble _ _ _ _ _ _ _ _ (by decide) (by decide) (by decide)

theorem vsub (rd : Reg) (ra : Reg) (rb : Reg) : Statement (.vsub rd ra rb) :=
  fieldOp_assemble _ _ _ _ _ _ _ _ (by decide) (by decide) (by decide)

theorem vmul (rd : Reg) (ra : Reg) (rb : Reg) : Statement (.vmul rd ra rb) :=
  fieldOp_assemble _ _ _ _ _ _ _ _ (by decide) (by decide) (by decide)

theorem vsqr (rd : Reg) (ra : Reg) : Statement (.vsqr rd ra) :=
  fieldOp_assemble _ _ _ _ _ _ _ _ (by decide) (by decide) (by decide)

theorem modadd (rd : Reg) (ra : Reg) (rb : Reg) (m : Modulus) : Statement (.modadd rd ra rb m) :=
  fieldOp_assemble _ _ _ _ _ _ _ _ (by decide) (modulusBit_lt m) (by decide)

theorem modsub (rd : Reg) (ra : Reg) (rb : Reg) (m : Modulus) : Statement (.modsub rd ra rb m) :=
  fieldOp_assemble _ _ _ _ _ _ _ _ (by decide) (modulusBit_lt m) (by decide)

theorem modmul (rd : Reg) (ra : Reg) (rb : Reg) (m : Modulus) : Statement (.modmul rd ra rb m) :=
  fieldOp_assemble _ _ _ _ _ _ _ _ (by decide) (modulusBit_lt m) (by decide)

theorem modsqr (rd : Reg) (ra : Reg) (m : Modulus) : Statement (.modsqr rd ra m) :=
  fieldOp_assemble _ _ _ _ _ _ _ _ (by decide) (modulusBit_lt m) (by decide)

theorem redp (rd : Reg) (ra : Reg) : Statement (.redp rd ra) :=
  fieldOp_assemble _ _ _ _ _ _ _ _ (by decide) (by decide) (by decide)

theorem modinv (rd : Reg) (ra : Reg) (m : Modulus) : Statement (.modinv rd ra m) :=
  fieldOp_assemble _ _ _ _ _ _ _ _ (by decide) (modulusBit_lt m) (by decide)

theorem modsqrt (rd : Reg) (ra : Reg) : Statement (.modsqrt rd ra) :=
  fieldOp_assemble _ _ _ _ _ _ _ _ (by decide) (by decide) (by decide)

theorem jdbl (rd : Reg) : Statement (.jdbl rd) :=
  fieldOp_assemble _ _ _ _ _ _ _ _ (by decide) (by decide) (by decide)

theorem applyz (rd : Reg) (rc : Reg) : Statement (.applyz rd rc) :=
  fieldOp_assemble _ _ _ _ _ _ _ _ (by decide) (by decide) (by decide)

theorem cozadd (ra : Reg) (rb : Reg) : Statement (.cozadd ra rb) :=
  fieldOp_assemble _ _ _ _ _ _ _ _ (by decide) (by decide) (by decide)

theorem cozaddc (ra : Reg) (rb : Reg) : Statement (.cozaddc ra rb) :=
  fieldOp_assemble _ _ _ _ _ _ _ _ (by decide) (by decide) (by decide)

theorem lstep (ra : Reg) (imm : Imm) : Statement (.lstep ra imm) :=
  fieldOp_assemble _ _ _ _ _ _ _ _ (by decide) (by decide) (by decide)

theorem smul (rd : Reg) (ra : Reg) (rb : Reg) (z : Option Reg) : Statement (.smul rd ra rb z) := by
  cases z with
  | none => exact fieldOp_assemble _ _ _ _ _ _ _ _ (by decide) (by decide) (by decide)
  | some rc => exact fieldOp_assemble _ _ _ _ _ _ _ _ (by decide) (by decide) (by decide)

theorem loadb (rd : Reg) (imm : Imm) : Statement (.loadb rd imm) :=
  fieldOp_assemble _ _ _ _ _ _ _ _ (by decide) (by decide) (by decide)

theorem storeb (ra : Reg) (imm : Imm) : Statement (.storeb ra imm) :=
  fieldOp_assemble _ _ _ _ _ _ _ _ (by decide) (by decide) (by decide)

theorem pcomp (ra : Reg) (imm : Imm) : Statement (.pcomp ra imm) :=
  fieldOp_assemble _ _ _ _ _ _ _ _ (by decide) (by decide) (by decide)

theorem pdecomp (rd : Reg) (imm : Imm) : Statement (.pdecomp rd imm) :=
  fieldOp_assemble _ _ _ _ _ _ _ _ (by decide) (by decide) (by decide)

theorem keygen : Statement .keygen :=
  fieldOp_assemble _ _ _ _ _ _ _ _ (by decide) (by decide) (by decide)

theorem sign : Statement .sign :=
  fieldOp_assemble _ _ _ _ _ _ _ _ (by decide) (by decide) (by decide)

theorem verify : Statement .verify :=
  fieldOp_assemble _ _ _ _ _ _ _ _ (by decide) (by decide) (by decide)

theorem ecdh : Statement .ecdh :=
  fieldOp_assemble _ _ _ _ _ _ _ _ (by decide) (by decide) (by decide)

end Sys2Proof.Laws.OpcodeByte
end

