-- ==== Sys2Proof/Laws/Primality.lean ====
section
/-! SUPPORT. The moduli p and n are prime (R13): Lucas certificates, each the full factorisation of N − 1 and a
number whose powers have order N − 1, checked by the kernel. -/

namespace Sys2Proof.Machine

-- One proof at a time: each thread that a proof runs in counts against the memory limit.
set_option Elab.async false

/-- A Lucas certificate: `factors` multiplies to N − 1, each factor is prime, and `a` has order N − 1 mod N. -/
theorem prime_of_certificate (N a : Nat) (factors : List Nat)
    (hprod : (1 < N && decide (N < 2 ^ 384) && factors.prod == N - 1) = true)
    (hprime : ∀ q ∈ factors, q.Prime)
    (hpow : (powMod N a (N - 1) == 1 && factors.all fun q => powMod N a ((N - 1) / q) != 1) = true) :
    N.Prime := by
  simp only [Bool.and_eq_true, decide_eq_true_eq, beq_iff_eq, List.all_eq_true, bne_iff_ne] at hprod hpow
  obtain ⟨⟨h1, h384⟩, hprod⟩ := hprod
  obtain ⟨hone, hne⟩ := hpow
  have cast : ∀ e, e ≤ N - 1 → ((a : ZMod N) ^ e = 1 ↔ powMod N a e = 1) := by
    intro e he
    rw [powMod_eq N a e (by omega), ← Nat.mod_eq_of_lt h1]
    rw [← Nat.cast_pow, ← Nat.cast_one, ZMod.natCast_eq_natCast_iff, Nat.ModEq, Nat.mod_eq_of_lt h1]
  refine lucas_primality N (a : ZMod N) ((cast _ le_rfl).2 hone) ?_
  intro q hq hdvd h
  rw [← hprod, hq.prime.dvd_prod_iff] at hdvd
  obtain ⟨r, hr, hqr⟩ := hdvd
  have hqr' : q = r := (Nat.prime_dvd_prime_iff_eq hq (hprime r hr)).1 hqr
  subst hqr'
  exact hne q hr ((cast _ (Nat.div_le_self _ _)).1 h)

theorem prime_2862218959 : Nat.Prime 2862218959 :=
  prime_of_certificate 2862218959 3 [2, 3, 157, 1373, 2213]
    (by decide +kernel)
    (by
      intro q hq
      simp only [List.mem_cons, List.not_mem_nil, or_false] at hq
      rcases hq with rfl | rfl | rfl | rfl | rfl
      · norm_num
      · norm_num
      · norm_num
      · norm_num
      · norm_num)
    (by decide +kernel)

theorem prime_807145746439 : Nat.Prime 807145746439 :=
  prime_of_certificate 807145746439 3 [2, 3, 47, 2862218959]
    (by decide +kernel)
    (by
      intro q hq
      simp only [List.mem_cons, List.not_mem_nil, or_false] at hq
      rcases hq with rfl | rfl | rfl | rfl
      · norm_num
      · norm_num
      · norm_num
      · exact prime_2862218959)
    (by decide +kernel)

theorem prime_513928823 : Nat.Prime 513928823 :=
  prime_of_certificate 513928823 5 [2, 11, 59, 599, 661]
    (by decide +kernel)
    (by
      intro q hq
      simp only [List.mem_cons, List.not_mem_nil, or_false] at hq
      rcases hq with rfl | rfl | rfl | rfl | rfl
      · norm_num
      · norm_num
      · norm_num
      · norm_num
      · norm_num)
    (by decide +kernel)

theorem prime_53448597593 : Nat.Prime 53448597593 :=
  prime_of_certificate 53448597593 3 [2, 2, 2, 13, 513928823]
    (by decide +kernel)
    (by
      intro q hq
      simp only [List.mem_cons, List.not_mem_nil, or_false] at hq
      rcases hq with rfl | rfl | rfl | rfl | rfl
      · norm_num
      · norm_num
      · norm_num
      · norm_num
      · exact prime_513928823)
    (by decide +kernel)

theorem prime_1357291859799823621 : Nat.Prime 1357291859799823621 :=
  prime_of_certificate 1357291859799823621 2 [2, 2, 3, 5, 67, 6317, 53448597593]
    (by decide +kernel)
    (by
      intro q hq
      simp only [List.mem_cons, List.not_mem_nil, or_false] at hq
      rcases hq with rfl | rfl | rfl | rfl | rfl | rfl | rfl
      · norm_num
      · norm_num
      · norm_num
      · norm_num
      · norm_num
      · norm_num
      · exact prime_53448597593)
    (by decide +kernel)

theorem prime_105957871 : Nat.Prime 105957871 :=
  prime_of_certificate 105957871 3 [2, 3, 5, 19, 211, 881]
    (by decide +kernel)
    (by
      intro q hq
      simp only [List.mem_cons, List.not_mem_nil, or_false] at hq
      rcases hq with rfl | rfl | rfl | rfl | rfl | rfl
      · norm_num
      · norm_num
      · norm_num
      · norm_num
      · norm_num
      · norm_num)
    (by decide +kernel)

theorem prime_246608641 : Nat.Prime 246608641 :=
  prime_of_certificate 246608641 19 [2, 2, 2, 2, 2, 2, 2, 2, 3, 3, 5, 21407]
    (by decide +kernel)
    (by
      intro q hq
      simp only [List.mem_cons, List.not_mem_nil, or_false] at hq
      rcases hq with rfl | rfl | rfl | rfl | rfl | rfl | rfl | rfl | rfl | rfl | rfl | rfl
      · norm_num
      · norm_num
      · norm_num
      · norm_num
      · norm_num
      · norm_num
      · norm_num
      · norm_num
      · norm_num
      · norm_num
      · norm_num
      · norm_num)
    (by decide +kernel)

theorem prime_529709925838459440593 : Nat.Prime 529709925838459440593 :=
  prime_of_certificate 529709925838459440593 3 [2, 2, 2, 2, 7, 181, 105957871, 246608641]
    (by decide +kernel)
    (by
      intro q hq
      simp only [List.mem_cons, List.not_mem_nil, or_false] at hq
      rcases hq with rfl | rfl | rfl | rfl | rfl | rfl | rfl | rfl
      · norm_num
      · norm_num
      · norm_num
      · norm_num
      · norm_num
      · norm_num
      · exact prime_105957871
      · exact prime_246608641)
    (by decide +kernel)

theorem prime_532247449 : Nat.Prime 532247449 :=
  prime_of_certificate 532247449 7 [2, 2, 2, 3, 61, 363557]
    (by decide +kernel)
    (by
      intro q hq
      simp only [List.mem_cons, List.not_mem_nil, or_false] at hq
      rcases hq with rfl | rfl | rfl | rfl | rfl | rfl
      · norm_num
      · norm_num
      · norm_num
      · norm_num
      · norm_num
      · norm_num)
    (by decide +kernel)

theorem prime_44925942675193 : Nat.Prime 44925942675193 :=
  prime_of_certificate 44925942675193 5 [2, 2, 2, 3, 3517, 532247449]
    (by decide +kernel)
    (by
      intro q hq
      simp only [List.mem_cons, List.not_mem_nil, or_false] at hq
      rcases hq with rfl | rfl | rfl | rfl | rfl | rfl
      · norm_num
      · norm_num
      · norm_num
      · norm_num
      · norm_num
      · exact prime_532247449)
    (by decide +kernel)

theorem prime_35581458644053887931343 : Nat.Prime 35581458644053887931343 :=
  prime_of_certificate 35581458644053887931343 5 [2, 17, 41, 568151, 44925942675193]
    (by decide +kernel)
    (by
      intro q hq
      simp only [List.mem_cons, List.not_mem_nil, or_false] at hq
      rcases hq with rfl | rfl | rfl | rfl | rfl
      · norm_num
      · norm_num
      · norm_num
      · norm_num
      · exact prime_44925942675193)
    (by decide +kernel)

theorem prime_23964610537191310276190549303 : Nat.Prime 23964610537191310276190549303 :=
  prime_of_certificate 23964610537191310276190549303 5 [2, 336757, 35581458644053887931343]
    (by decide +kernel)
    (by
      intro q hq
      simp only [List.mem_cons, List.not_mem_nil, or_false] at hq
      rcases hq with rfl | rfl | rfl
      · norm_num
      · norm_num
      · exact prime_35581458644053887931343)
    (by decide +kernel)

theorem prime_862725979338887169942859774909 : Nat.Prime 862725979338887169942859774909 :=
  prime_of_certificate 862725979338887169942859774909 2 [2, 2, 3, 3, 23964610537191310276190549303]
    (by decide +kernel)
    (by
      intro q hq
      simp only [List.mem_cons, List.not_mem_nil, or_false] at hq
      rcases hq with rfl | rfl | rfl | rfl | rfl
      · norm_num
      · norm_num
      · norm_num
      · norm_num
      · exact prime_23964610537191310276190549303)
    (by decide +kernel)

theorem prime_20705423504133292078628634597817 : Nat.Prime 20705423504133292078628634597817 :=
  prime_of_certificate 20705423504133292078628634597817 5 [2, 2, 2, 3, 862725979338887169942859774909]
    (by decide +kernel)
    (by
      intro q hq
      simp only [List.mem_cons, List.not_mem_nil, or_false] at hq
      rcases hq with rfl | rfl | rfl | rfl | rfl
      · norm_num
      · norm_num
      · norm_num
      · norm_num
      · exact prime_862725979338887169942859774909)
    (by decide +kernel)

theorem prime_413244619895455989650825325680172591660047 : Nat.Prime 413244619895455989650825325680172591660047 :=
  prime_of_certificate 413244619895455989650825325680172591660047 5 [2, 17, 97, 6051631, 20705423504133292078628634597817]
    (by decide +kernel)
    (by
      intro q hq
      simp only [List.mem_cons, List.not_mem_nil, or_false] at hq
      rcases hq with rfl | rfl | rfl | rfl | rfl
      · norm_num
      · norm_num
      · norm_num
      · norm_num
      · exact prime_20705423504133292078628634597817)
    (by decide +kernel)

theorem prime_12397338596863679689524759770405177749801411 : Nat.Prime 12397338596863679689524759770405177749801411 :=
  prime_of_certificate 12397338596863679689524759770405177749801411 2 [2, 3, 5, 413244619895455989650825325680172591660047]
    (by decide +kernel)
    (by
      intro q hq
      simp only [List.mem_cons, List.not_mem_nil, or_false] at hq
      rcases hq with rfl | rfl | rfl | rfl
      · norm_num
      · norm_num
      · norm_num
      · exact prime_413244619895455989650825325680172591660047)
    (by decide +kernel)

theorem prime_19173790298027098165721053155794528970226934547887232785722672956982046098136719667167519737147526097 : Nat.Prime 19173790298027098165721053155794528970226934547887232785722672956982046098136719667167519737147526097 :=
  prime_of_certificate 19173790298027098165721053155794528970226934547887232785722672956982046098136719667167519737147526097 3 [2, 2, 2, 2, 11, 11, 11, 8389, 38557, 312289, 1357291859799823621, 529709925838459440593, 12397338596863679689524759770405177749801411]
    (by decide +kernel)
    (by
      intro q hq
      simp only [List.mem_cons, List.not_mem_nil, or_false] at hq
      rcases hq with rfl | rfl | rfl | rfl | rfl | rfl | rfl | rfl | rfl | rfl | rfl | rfl | rfl
      · norm_num
      · norm_num
      · norm_num
      · norm_num
      · norm_num
      · norm_num
      · norm_num
      · norm_num
      · norm_num
      · norm_num
      · exact prime_1357291859799823621
      · exact prime_529709925838459440593
      · exact prime_12397338596863679689524759770405177749801411)
    (by decide +kernel)

theorem fieldPrime_prime : Nat.Prime fieldPrime :=
  prime_of_certificate fieldPrime 19 [2, 19, 67, 807145746439, 19173790298027098165721053155794528970226934547887232785722672956982046098136719667167519737147526097]
    (by decide +kernel)
    (by
      intro q hq
      simp only [List.mem_cons, List.not_mem_nil, or_false] at hq
      rcases hq with rfl | rfl | rfl | rfl | rfl
      · norm_num
      · norm_num
      · norm_num
      · exact prime_807145746439
      · exact prime_19173790298027098165721053155794528970226934547887232785722672956982046098136719667167519737147526097)
    (by decide +kernel)

theorem prime_154950581 : Nat.Prime 154950581 :=
  prime_of_certificate 154950581 2 [2, 2, 5, 17, 455737]
    (by decide +kernel)
    (by
      intro q hq
      simp only [List.mem_cons, List.not_mem_nil, or_false] at hq
      rcases hq with rfl | rfl | rfl | rfl | rfl
      · norm_num
      · norm_num
      · norm_num
      · norm_num
      · norm_num)
    (by decide +kernel)

theorem prime_290064143 : Nat.Prime 290064143 :=
  prime_of_certificate 290064143 5 [2, 79, 491, 3739]
    (by decide +kernel)
    (by
      intro q hq
      simp only [List.mem_cons, List.not_mem_nil, or_false] at hq
      rcases hq with rfl | rfl | rfl | rfl
      · norm_num
      · norm_num
      · norm_num
      · norm_num)
    (by decide +kernel)

theorem prime_120699720968197491947347 : Nat.Prime 120699720968197491947347 :=
  prime_of_certificate 120699720968197491947347 3 [2, 3, 13, 34429, 154950581, 290064143]
    (by decide +kernel)
    (by
      intro q hq
      simp only [List.mem_cons, List.not_mem_nil, or_false] at hq
      rcases hq with rfl | rfl | rfl | rfl | rfl | rfl
      · norm_num
      · norm_num
      · norm_num
      · norm_num
      · exact prime_154950581
      · exact prime_290064143)
    (by decide +kernel)

theorem prime_1124679999981664229965379347 : Nat.Prime 1124679999981664229965379347 :=
  prime_of_certificate 1124679999981664229965379347 2 [2, 3, 1553, 120699720968197491947347]
    (by decide +kernel)
    (by
      intro q hq
      simp only [List.mem_cons, List.not_mem_nil, or_false] at hq
      rcases hq with rfl | rfl | rfl | rfl
      · norm_num
      · norm_num
      · norm_num
      · exact prime_120699720968197491947347)
    (by decide +kernel)

theorem prime_1436833069313 : Nat.Prime 1436833069313 :=
  prime_of_certificate 1436833069313 3 [2, 2, 2, 2, 2, 2, 2, 2, 16979, 330563]
    (by decide +kernel)
    (by
      intro q hq
      simp only [List.mem_cons, List.not_mem_nil, or_false] at hq
      rcases hq with rfl | rfl | rfl | rfl | rfl | rfl | rfl | rfl | rfl | rfl
      · norm_num
      · norm_num
      · norm_num
      · norm_num
      · norm_num
      · norm_num
      · norm_num
      · norm_num
      · norm_num
      · norm_num)
    (by decide +kernel)

theorem prime_37344768852931 : Nat.Prime 37344768852931 :=
  prime_of_certificate 37344768852931 3 [2, 3, 5, 7, 11, 11, 149, 9863677]
    (by decide +kernel)
    (by
      intro q hq
      simp only [List.mem_cons, List.not_mem_nil, or_false] at hq
      rcases hq with rfl | rfl | rfl | rfl | rfl | rfl | rfl | rfl
      · norm_num
      · norm_num
      · norm_num
      · norm_num
      · norm_num
      · norm_num
      · norm_num
      · norm_num)
    (by decide +kernel)

theorem prime_55942463741690639 : Nat.Prime 55942463741690639 :=
  prime_of_certificate 55942463741690639 7 [2, 7, 107, 37344768852931]
    (by decide +kernel)
    (by
      intro q hq
      simp only [List.mem_cons, List.not_mem_nil, or_false] at hq
      rcases hq with rfl | rfl | rfl | rfl
      · norm_num
      · norm_num
      · norm_num
      · exact prime_37344768852931)
    (by decide +kernel)

theorem prime_272109983 : Nat.Prime 272109983 :=
  prime_of_certificate 272109983 5 [2, 19, 73, 233, 421]
    (by decide +kernel)
    (by
      intro q hq
      simp only [List.mem_cons, List.not_mem_nil, or_false] at hq
      rcases hq with rfl | rfl | rfl | rfl | rfl
      · norm_num
      · norm_num
      · norm_num
      · norm_num
      · norm_num)
    (by decide +kernel)

theorem prime_228572385721 : Nat.Prime 228572385721 :=
  prime_of_certificate 228572385721 23 [2, 2, 2, 3, 5, 7, 272109983]
    (by decide +kernel)
    (by
      intro q hq
      simp only [List.mem_cons, List.not_mem_nil, or_false] at hq
      rcases hq with rfl | rfl | rfl | rfl | rfl | rfl | rfl
      · norm_num
      · norm_num
      · norm_num
      · norm_num
      · norm_num
      · norm_num
      · exact prime_272109983)
    (by decide +kernel)

theorem prime_23314383343543 : Nat.Prime 23314383343543 :=
  prime_of_certificate 23314383343543 3 [2, 3, 17, 228572385721]
    (by decide +kernel)
    (by
      intro q hq
      simp only [List.mem_cons, List.not_mem_nil, or_false] at hq
      rcases hq with rfl | rfl | rfl | rfl
      · norm_num
      · norm_num
      · norm_num
      · exact prime_228572385721)
    (by decide +kernel)

theorem prime_426632512014427833817 : Nat.Prime 426632512014427833817 :=
  prime_of_certificate 426632512014427833817 11 [2, 2, 2, 3, 13, 89, 659, 23314383343543]
    (by decide +kernel)
    (by
      intro q hq
      simp only [List.mem_cons, List.not_mem_nil, or_false] at hq
      rcases hq with rfl | rfl | rfl | rfl | rfl | rfl | rfl | rfl
      · norm_num
      · norm_num
      · norm_num
      · norm_num
      · norm_num
      · norm_num
      · norm_num
      · exact prime_23314383343543)
    (by decide +kernel)

theorem prime_1495199339761412565498084319 : Nat.Prime 1495199339761412565498084319 :=
  prime_of_certificate 1495199339761412565498084319 6 [2, 3, 3, 3, 64901, 426632512014427833817]
    (by decide +kernel)
    (by
      intro q hq
      simp only [List.mem_cons, List.not_mem_nil, or_false] at hq
      rcases hq with rfl | rfl | rfl | rfl | rfl | rfl
      · norm_num
      · norm_num
      · norm_num
      · norm_num
      · norm_num
      · exact prime_426632512014427833817)
    (by decide +kernel)

theorem prime_17942392077136950785977011829 : Nat.Prime 17942392077136950785977011829 :=
  prime_of_certificate 17942392077136950785977011829 6 [2, 2, 3, 1495199339761412565498084319]
    (by decide +kernel)
    (by
      intro q hq
      simp only [List.mem_cons, List.not_mem_nil, or_false] at hq
      rcases hq with rfl | rfl | rfl | rfl
      · norm_num
      · norm_num
      · norm_num
      · exact prime_1495199339761412565498084319)
    (by decide +kernel)

theorem prime_1059392654943455286185473617842338478315215895509773412096307 : Nat.Prime 1059392654943455286185473617842338478315215895509773412096307 :=
  prime_of_certificate 1059392654943455286185473617842338478315215895509773412096307 2 [2, 251, 248431, 8463023, 55942463741690639, 17942392077136950785977011829]
    (by decide +kernel)
    (by
      intro q hq
      simp only [List.mem_cons, List.not_mem_nil, or_false] at hq
      rcases hq with rfl | rfl | rfl | rfl | rfl | rfl
      · norm_num
      · norm_num
      · norm_num
      · norm_num
      · exact prime_55942463741690639
      · exact prime_17942392077136950785977011829)
    (by decide +kernel)

theorem prime_3055465788140352002733946906144561090641249606160407884365391979704929268480326390471 : Nat.Prime 3055465788140352002733946906144561090641249606160407884365391979704929268480326390471 :=
  prime_of_certificate 3055465788140352002733946906144561090641249606160407884365391979704929268480326390471 12 [2, 3, 5, 151, 347, 1276987, 1436833069313, 1059392654943455286185473617842338478315215895509773412096307]
    (by decide +kernel)
    (by
      intro q hq
      simp only [List.mem_cons, List.not_mem_nil, or_false] at hq
      rcases hq with rfl | rfl | rfl | rfl | rfl | rfl | rfl | rfl
      · norm_num
      · norm_num
      · norm_num
      · norm_num
      · norm_num
      · norm_num
      · exact prime_1436833069313
      · exact prime_1059392654943455286185473617842338478315215895509773412096307)
    (by decide +kernel)

theorem groupOrder_prime : Nat.Prime groupOrder :=
  prime_of_certificate groupOrder 2 [2, 3, 3, 7, 7, 13, 1124679999981664229965379347, 3055465788140352002733946906144561090641249606160407884365391979704929268480326390471]
    (by decide +kernel)
    (by
      intro q hq
      simp only [List.mem_cons, List.not_mem_nil, or_false] at hq
      rcases hq with rfl | rfl | rfl | rfl | rfl | rfl | rfl | rfl
      · norm_num
      · norm_num
      · norm_num
      · norm_num
      · norm_num
      · norm_num
      · exact prime_1124679999981664229965379347
      · exact prime_3055465788140352002733946906144561090641249606160407884365391979704929268480326390471)
    (by decide +kernel)

end Sys2Proof.Machine
end

