-- ==== Sys2Proof/Laws/Step.lean ====
section
/-! SUPPORT. What a step is: the event at the head of the schedule, or the core's turn. -/

namespace Sys2Proof.Machine

-- One proof at a time: each thread that a proof runs in counts against the memory limit.
set_option Elab.async false

theorem step_of_env_nil {s : State} (h : s.env = []) : step s = coreTurn s := by
  rw [step, takeEvent, h]

theorem step_of_env_cons {s : State} {e : Event} {rest : List Event} (h : s.env = e :: rest) :
    step s = runEvent e { s with env := rest } := by
  rw [step, takeEvent, h]

theorem coreTurn_reset {s : State} (h : s.rst = true) : coreTurn s = .next s := by rw [coreTurn, if_pos h]

theorem coreTurn_idle {s : State} (h : s.phase = .idle) : coreTurn s = .next s := by
  rw [coreTurn, h]
  split <;> rfl

theorem coreTurn_ok {s : State} {i : Instr} (hr : s.rst = false) (hp : s.phase = .busy)
    (hd : decode s.cmd = .ok i) : coreTurn s = exec i s := by
  rw [coreTurn, hr, hp, hd]
  rfl

theorem coreTurn_error {s : State} {e : DecodeError} (hr : s.rst = false) (hp : s.phase = .busy)
    (hd : decode s.cmd = .error e) : coreTurn s = .next (s.complete (decodeErrCode e) 0) := by
  rw [coreTurn, hr, hp, hd]
  rfl

/-- What the core's turn can answer. -/
theorem coreTurn_cases {s t : State} (h : coreTurn s = .next t) :
    ((s.rst = true ∨ s.phase = .idle) ∧ t = s) ∨
      (s.rst = false ∧ s.phase = .busy ∧
        ((∃ i, decode s.cmd = .ok i ∧ exec i s = .next t) ∨
          (∃ e, decode s.cmd = .error e ∧ t = s.complete (decodeErrCode e) 0))) := by
  cases hr : s.rst with
  | true =>
    rw [coreTurn_reset hr] at h
    exact .inl ⟨.inl rfl, (Host.Outcome.next.inj h).symm⟩
  | false =>
    cases hp : s.phase with
    | idle =>
      rw [coreTurn_idle hp] at h
      exact .inl ⟨.inr rfl, (Host.Outcome.next.inj h).symm⟩
    | busy =>
      refine .inr ⟨rfl, rfl, ?_⟩
      cases hd : decode s.cmd with
      | ok i => exact .inl ⟨i, rfl, by rwa [coreTurn_ok hr hp hd] at h⟩
      | error e =>
        rw [coreTurn_error hr hp hd] at h
        exact .inr ⟨e, rfl, (Host.Outcome.next.inj h).symm⟩

/-- What one event can answer: an access, a transfer or a turn that the asserted reset input stops, or its effect. -/
theorem runEvent_cases {e : Event} {s t : State} (h : runEvent e s = .next t) :
    (∃ off size d, e = .hostWrite off size d ∧ t = if s.rst then s else s.hostWrite off size d) ∨
      (∃ off size, e = .hostRead off size ∧ t = if s.rst then s else s.hostRead off size) ∨
      (∃ w, e = .entropyWord w ∧ t = if s.rst then s else s.offerEntropy w) ∨
      (e = .coreTurn ∧ coreTurn s = .next t) ∨
      (∃ level, e = .rst level ∧ t = s.setRst level) := by
  cases e with
  | hostWrite off size d => exact .inl ⟨off, size, d, rfl, (Host.Outcome.next.inj h).symm⟩
  | hostRead off size => exact .inr (.inl ⟨off, size, rfl, (Host.Outcome.next.inj h).symm⟩)
  | entropyWord w => exact .inr (.inr (.inl ⟨w, rfl, (Host.Outcome.next.inj h).symm⟩))
  | coreTurn => exact .inr (.inr (.inr (.inl ⟨rfl, h⟩)))
  | rst level => exact .inr (.inr (.inr (.inr ⟨level, rfl, (Host.Outcome.next.inj h).symm⟩)))

end Sys2Proof.Machine
end

