-- ==== Sys2Proof/Laws/TwoTorsion.lean ====
section
/-! SUPPORT. The curve has no point with y = 0 (R13): x³ − 3x + b has no root mod p. At a root x of it, every
polynomial in x is one of degree below 3, so x^p − x is one whose coefficients can be computed, and it has an inverse
there. But x^p = x in Z/p. -/

namespace Sys2Proof.Machine

-- One proof at a time: each thread that a proof runs in counts against the memory limit.
set_option Elab.async false
set_option exponentiation.threshold 1000

/-- A polynomial modulo x³ − 3x + b, its coefficients from the constant one up. -/
structure ModCubic where
  c0 : Nat
  c1 : Nat
  c2 : Nat
deriving DecidableEq, Repr

/-- The value of the polynomial at x. -/
def ModCubic.value (f : ModCubic) (x : ZMod fieldPrime) : ZMod fieldPrime := f.c0 + f.c1 * x + f.c2 * x ^ 2

/-- The product, where x³ = 3x − b. -/
def ModCubic.mul (f g : ModCubic) : ModCubic :=
  let c3 := f.c1 * g.c2 + f.c2 * g.c1
  let c4 := f.c2 * g.c2
  ⟨(f.c0 * g.c0 + (fieldPrime - curveB) * c3) % fieldPrime,
    (f.c0 * g.c1 + f.c1 * g.c0 + 3 * c3 + (fieldPrime - curveB) * c4) % fieldPrime,
    (f.c0 * g.c2 + f.c1 * g.c1 + f.c2 * g.c0 + 3 * c4) % fieldPrime⟩

/-- Square and multiply: `acc · f^e`, for e below 2^fuel. -/
def ModCubic.powLoop : Nat → ModCubic → Nat → ModCubic → ModCubic
  | 0, _, _, acc => acc
  | fuel + 1, f, e, acc => ModCubic.powLoop fuel (f.mul f) (e / 2) (if e % 2 = 1 then acc.mul f else acc)

theorem ModCubic.value_mul (f g : ModCubic) (x : ZMod fieldPrime) (hx : x ^ 3 = 3 * x - curveB) :
    (f.mul g).value x = f.value x * g.value x := by
  have hb : ((fieldPrime - curveB : Nat) : ZMod fieldPrime) = -curveB := by
    rw [Nat.cast_sub (by decide)]
    simp
  simp only [ModCubic.value, ModCubic.mul, ZMod.natCast_mod, Nat.cast_add, Nat.cast_mul, hb, Nat.cast_ofNat]
  linear_combination -(((f.c1 : ZMod fieldPrime) * g.c2 + f.c2 * g.c1) + f.c2 * g.c2 * x) * hx

theorem ModCubic.value_powLoop (x : ZMod fieldPrime) (hx : x ^ 3 = 3 * x - curveB) :
    ∀ (fuel : Nat) (f : ModCubic) (e : Nat) (acc : ModCubic), e < 2 ^ fuel →
      (ModCubic.powLoop fuel f e acc).value x = acc.value x * f.value x ^ e
  | 0, f, e, acc, he => by
    obtain rfl : e = 0 := by omega
    simp [ModCubic.powLoop]
  | fuel + 1, f, e, acc, he => by
    have key : f.value x ^ e = (f.value x * f.value x) ^ (e / 2) * f.value x ^ (e % 2) := by
      rw [← pow_two, ← pow_mul, ← pow_add, Nat.div_add_mod]
    rw [ModCubic.powLoop, ModCubic.value_powLoop x hx fuel _ _ _ (by omega), ModCubic.value_mul _ _ _ hx, key]
    rcases Nat.mod_two_eq_zero_or_one e with h | h
    · simp [h]
    · rw [if_pos h, h, ModCubic.value_mul _ _ _ hx]
      ring

/-- The inverse of x^p − x at a root of x³ − 3x + b. -/
def frobeniusInverse : ModCubic :=
  ⟨0x95adec811ebe8d4b9e2b41150d78f91a619189a415583b8f5e01888da3353b61765cde8cd6c12846310c3f0c10aae682,
    0x3581b884702fb0931c541a5cacefbe3bea864db86e01e048170560418dca3aa8689f246d9d11ccd2e145532dd48491af,
    0x4efcebfdccd7cb25d1b864228f0c32d3a83ec026134ae4753bdff5d3f1fa20b278b31dc3487beb792024fe436f36b43a⟩

theorem frobeniusInverse_mul :
    frobeniusInverse.mul (ModCubic.powLoop 384 ⟨0, 1, 0⟩ fieldPrime ⟨1, 0, 0⟩) =
      ⟨1 + (frobeniusInverse.mul ⟨0, 1, 0⟩).c0, (frobeniusInverse.mul ⟨0, 1, 0⟩).c1,
        (frobeniusInverse.mul ⟨0, 1, 0⟩).c2⟩ := by decide +kernel

/-- x³ − 3x + b is not 0 in Z/p (R13: no point of the curve has y = 0). -/
theorem cubic_ne_zero (x : ZMod fieldPrime) : x ^ 3 + curveB - 3 * x ≠ 0 := by
  intro h
  have := Fact.mk fieldPrime_prime
  have hx : x ^ 3 = 3 * x - curveB := by linear_combination h
  have hpow := ModCubic.value_powLoop x hx 384 ⟨0, 1, 0⟩ fieldPrime ⟨1, 0, 0⟩ (by decide)
  have hone := congrArg (ModCubic.value · x) frobeniusInverse_mul
  have hid := ModCubic.value_mul frobeniusInverse ⟨0, 1, 0⟩ x hx
  simp only [ModCubic.value_mul _ _ _ hx, hpow] at hone
  simp only [ModCubic.value, Nat.cast_zero, Nat.cast_one, zero_mul, zero_add, add_zero, one_mul, ZMod.pow_card,
    Nat.cast_add] at hone hid
  exact one_ne_zero (α := ZMod fieldPrime) (by linear_combination -hone - hid)

/-- The right-hand side of the curve equation is never 0 (R13). -/
theorem curveRhs_ne_zero (x : Nat) : curveRhs x ≠ 0 := by
  intro h
  apply cubic_ne_zero (x : ZMod fieldPrime)
  rw [← cast_curveRhs, h, Nat.cast_zero]

end Sys2Proof.Machine
end

