-- ==== Sys2Proof/Tests/Slice0.lean ====
section
/-! SUPPORT. Tests of the model, each named. Expected results are the spec's: the examples and corner cases of its
rules, its vectors (95_test_vectors.md), or a hand calculation from a rule's formula, as each comment says. The
theorems named `witness_…` show that the premises of a claim can be met. -/

namespace Sys2Proof.Tests

open Sys2Proof.Machine

set_option Elab.async false
set_option exponentiation.threshold 1000

/-! ### Operand checks: an ill-formed term for each, and the last legal value beside it (R81 to R83) -/

theorem test_wellFormed_triple : Instr.wellFormed (.jdbl 14) = false ∧ Instr.wellFormed (.jdbl 13) = true := by decide

theorem test_wellFormed_quad : Instr.wellFormed (.lstep 13 0) = false ∧ Instr.wellFormed (.lstep 12 1) = true := by decide

theorem test_wellFormed_destination_pair : Instr.wellFormed (.vmul 15 0 0) = false ∧ Instr.wellFormed (.vmul 14 0 0) = true := by decide

theorem test_wellFormed_source_pair : Instr.wellFormed (.redp 0 15) = false ∧ Instr.wellFormed (.redp 0 14) = true := by decide

theorem test_wellFormed_point_pair : Instr.wellFormed (.smul 14 15 0 none) = false ∧ Instr.wellFormed (.smul 14 14 15 (some 15)) = true := by decide

theorem test_wellFormed_disjoint_pairs : Instr.wellFormed (.cozadd 4 5) = false ∧ Instr.wellFormed (.cozadd 4 6) = true := by decide

theorem test_wellFormed_disjoint_pairs_conjugate : Instr.wellFormed (.cozaddc 3 3) = false ∧ Instr.wellFormed (.cozaddc 5 3) = true := by decide

theorem test_wellFormed_coz_pair : Instr.wellFormed (.cozadd 15 0) = false ∧ Instr.wellFormed (.cozadd 14 0) = true := by decide

theorem test_wellFormed_bit_index : Instr.wellFormed (.vtestbit 0 384) = false ∧ Instr.wellFormed (.vtestbit 0 383) = true := by decide

theorem test_wellFormed_constant_index : Instr.wellFormed (.ldc 0 8) = false ∧ Instr.wellFormed (.ldc 0 7) = true := by decide

theorem test_wellFormed_string_offset : Instr.wellFormed (.loadb 0 465) = false ∧ Instr.wellFormed (.loadb 0 464) = true := by decide

theorem test_wellFormed_store_offset : Instr.wellFormed (.storeb 0 465) = false ∧ Instr.wellFormed (.storeb 0 464) = true := by decide

theorem test_wellFormed_point_offset : Instr.wellFormed (.pcomp 0 464) = false ∧ Instr.wellFormed (.pcomp 14 463) = true := by decide

theorem test_wellFormed_decompress_offset : Instr.wellFormed (.pdecomp 0 464) = false ∧ Instr.wellFormed (.pdecomp 14 463) = true := by decide

theorem test_wellFormed_ladder_bit : Instr.wellFormed (.lstep 0 2) = false ∧ Instr.wellFormed (.lstep 0 1) = true := by decide

theorem test_wellFormed_square_pair : Instr.wellFormed (.vsqr 15 0) = false ∧ Instr.wellFormed (.vsqr 14 0) = true := by decide

theorem test_wellFormed_applyz_pair : Instr.wellFormed (.applyz 15 0) = false ∧ Instr.wellFormed (.applyz 14 15) = true := by decide

/-! ### Decode: one word a command, assembled by hand from the field table of R80 -/

theorem test_decode_nop : decode 0x0000000000000000 = .ok (.nop) := by decide

theorem test_decode_zeroize : decode 0x0000000000000001 = .ok (.zeroize) := by decide

theorem test_decode_ldc : decode 0x0000000200000302 = .ok (.ldc 3 2) := by decide

theorem test_decode_vset : decode 0x0000000000001008 = .ok (.vset 0 1) := by decide

theorem test_decode_viszero : decode 0x0000000000002009 = .ok (.viszero 2) := by decide

theorem test_decode_vtestbit : decode 0x0000017F0000E00A = .ok (.vtestbit 14 383) := by decide

theorem test_decode_vnumbits : decode 0x0000000000001F0B = .ok (.vnumbits 15 1) := by decide

theorem test_decode_vcmp : decode 0x000000000009800C = .ok (.vcmp 8 9) := by decide

theorem test_decode_vlshift1 : decode 0x000000000000710D = .ok (.vlshift1 1 7) := by decide

theorem test_decode_vrshift1 : decode 0x000000000000170E = .ok (.vrshift1 7 1) := by decide

theorem test_decode_vadd : decode 0x000000000004210F = .ok (.vadd 1 2 4) := by decide

theorem test_decode_vsub : decode 0x0000000000024810 = .ok (.vsub 8 4 2) := by decide

theorem test_decode_vmul : decode 0x000000000001FE11 = .ok (.vmul 14 15 1) := by decide

theorem test_decode_vsqr : decode 0x000000000000A512 = .ok (.vsqr 5 10) := by decide

theorem test_decode_modadd : decode 0x0000000001042120 = .ok (.modadd 1 2 4 .n) := by decide

theorem test_decode_modsub : decode 0x0000000000042121 = .ok (.modsub 1 2 4 .p) := by decide

theorem test_decode_modmul : decode 0x0000000001010222 = .ok (.modmul 2 0 1 .n) := by decide

theorem test_decode_modsqr : decode 0x0000000001006923 = .ok (.modsqr 9 6 .n) := by decide

theorem test_decode_redp : decode 0x000000000000E424 = .ok (.redp 4 14) := by decide

theorem test_decode_modinv : decode 0x000000000100C325 = .ok (.modinv 3 12 .n) := by decide

theorem test_decode_modsqrt : decode 0x0000000000003C26 = .ok (.modsqrt 12 3) := by decide

theorem test_decode_jdbl : decode 0x0000000000000D30 = .ok (.jdbl 13) := by decide

theorem test_decode_applyz : decode 0x0000000000500231 = .ok (.applyz 2 5) := by decide

theorem test_decode_cozadd : decode 0x0000000000081032 = .ok (.cozadd 1 8) := by decide

theorem test_decode_cozaddc : decode 0x0000000000018033 = .ok (.cozaddc 8 1) := by decide

theorem test_decode_lstep : decode 0x000000010000C038 = .ok (.lstep 12 1) := by decide

theorem test_decode_smul : decode 0x0000000000020439 = .ok (.smul 4 0 2 none) := by decide

theorem test_decode_smul_z : decode 0x0000000002320639 = .ok (.smul 6 0 2 (some 3)) := by decide

theorem test_decode_loadb : decode 0x0000014000000840 = .ok (.loadb 8 0x140) := by decide

theorem test_decode_storeb : decode 0x000001D000003041 = .ok (.storeb 3 464) := by decide

theorem test_decode_pcomp : decode 0x000001CF00006042 = .ok (.pcomp 6 463) := by decide

theorem test_decode_pdecomp : decode 0x0000000100000E43 = .ok (.pdecomp 14 1) := by decide

theorem test_decode_keygen : decode 0x0000000000000050 = .ok (.keygen) := by decide

theorem test_decode_sign : decode 0x0000000000000051 = .ok (.sign) := by decide

theorem test_decode_verify : decode 0x0000000000000052 = .ok (.verify) := by decide

theorem test_decode_ecdh : decode 0x0000000000000053 = .ok (.ecdh) := by decide

/-! ### Decode: words that are refused (R88 to R90) -/

/-- Reserved bit 26 (R88). -/
theorem test_refused_reserved_bit_26 : decode 0x0000000004002009 = .error .illegalOperand := by decide

/-- Reserved bit 63 (R88). -/
theorem test_refused_reserved_bit_63 : decode 0x8000000000000000 = .error .illegalOperand := by decide

/-- RD is unused by VISZERO (R88). -/
theorem test_refused_unused_field : decode 0x0000000000002109 = .error .illegalOperand := by decide

/-- M on a command without it (R84). -/
theorem test_refused_m_on_jdbl : decode 0x0000000001000030 = .error .illegalOperand := by decide

/-- RC with ZR = 0 (R85). -/
theorem test_refused_rc_without_zr : decode 0x0000000000320439 = .error .illegalOperand := by decide

/-- A pair at V15 (R81). -/
theorem test_refused_pair_past_v15 : decode 0x0000000000000F11 = .error .illegalOperand := by decide

/-- |RA - RB| = 1 (R82). -/
theorem test_refused_pairs_overlap : decode 0x0000000000054032 = .error .illegalOperand := by decide

/-- LDC 8 (R83). -/
theorem test_refused_imm_out_of_range : decode 0x0000000800000002 = .error .illegalOperand := by decide

/-- An unknown opcode is reported first (R89). -/
theorem test_refused_opcode_before_operand : decode 0x8000000000000003 = .error .illegalOpcode := by decide

/-- Opcode 0x54 (R90). -/
theorem test_refused_opcode_54 : decode 0x0000000000000054 = .error .illegalOpcode := by decide

/-! ### Small states -/

/-- The reset state with registers written. -/
def regs (xs : List (Nat × Nat)) : State := xs.foldl (fun s x => s.writeV x.1 (BitVec.ofNat 384 x.2)) State.reset

/-- The state a command leaves; the state after reset where there is none. -/
def after (o : Host.Outcome State Fault Refusal) : State :=
  match o with
  | .next t => t
  | .fault _ => State.reset
  | .refused _ => State.reset

/-- Every command answers a next state. -/
theorem exec_after (i : Instr) (s : State) : exec i s = .next (after (exec i s)) := by
  obtain ⟨_, _, _, _, _, h⟩ | ⟨_, h⟩ := exec_answers i s <;> rw [h] <;> rfl

/-- BUSY with this command word. -/
def running (s : State) (w : Word64) : State := { s with phase := .busy, cmd := w }

/-- BUSY with this command word and these entropy words taken. -/
def supplied (s : State) (w : Word64) (words : List Word64) : State := { running s w with entropy := words }

theorem supplied_buf (s : State) (w : Word64) (words : List Word64) : (supplied s w words).buf = s.buf := rfl

theorem running_phase (s : State) (w : Word64) : (running s w).phase = .busy := rfl

theorem running_buf (s : State) (w : Word64) : (running s w).buf = s.buf := rfl

/-- BUF with PUB = compress(G), SECRET = d and nothing else. -/
def keyed (d : Nat) : State :=
  (State.reset.writeBuf 0x000 (0x03 :: be48 genX)).writeBuf 0x040 (be48 d)

/-- The six words of a candidate below 2^64. -/
def candidateWords (c : Nat) : List Word64 := [0, 0, 0, 0, 0, BitVec.ofNat 64 c]

/-- The x-coordinate of [2]G (vector SM-2). -/
def twoGx : Nat :=
  0x08D999057BA3D2D969260045C55B97F089025959A6F434D651D207D19FB96E9E4FE0E86EBE0E64F85B96A9C75295DF61

/-- The y-coordinate of [2]G (vector SM-2). -/
def twoGy : Nat :=
  0x8E80F1FA5B1B3CEDB7BFE8DFFD6DBA74B275D875BC6CC43E904E505F256AB4255FFD43E94D39E22D61501E700A940E80

/-! ### One command each: examples and corner cases of the rules -/

/-- R240: NOP completes with DONE = 1 and ERR = 0x00. -/
theorem test_nop : (after (exec .nop State.reset)).statusWord = 2 := by decide

/-- R241, its example. -/
theorem test_zeroize :
    let t := after (exec .zeroize { ((regs [(3, 5)]).writeBuf 0x40 [0xAB]) with z := true, ovr := true })
    (t.src 3, t.buf.read 0x40, t.z, t.ovr) = (0, 0, false, true) := by decide +kernel

/-- R201, its example. -/
theorem test_ldc : (after (exec (.ldc 3 2) State.reset)).src 3 =
    0xFFFFFFFFFFFFFFFFFFFFFFFFFFFFFFFFFFFFFFFFFFFFFFFFFFFFFFFFFFFFFFFEFFFFFFFF0000000000000000FFFFFFFF := by
  decide +kernel

/-- R101, its example. -/
theorem test_vset : (after (exec (.vset 0 1) (regs [(1, 5)]))).src 0 = 5 := by decide +kernel

/-- R102, its example: 2^383 is not zero. -/
theorem test_viszero : (after (exec (.viszero 2) (regs [(2, 2 ^ 383)]))).z = false ∧
    (after (exec (.viszero 2) (regs []))).z = true := by decide +kernel

/-- R103, its example. -/
theorem test_vtestbit : (after (exec (.vtestbit 0 64) (regs [(0, 2 ^ 64)]))).bit = true ∧
    (after (exec (.vtestbit 0 63) (regs [(0, 2 ^ 64)]))).bit = false := by decide +kernel

/-- R104, its example and its largest case. -/
theorem test_vnumbits : (after (exec (.vnumbits 2 1) (regs [(1, 2 ^ 32)]))).src 2 = 33 ∧
    (after (exec (.vnumbits 2 1) (regs [(1, 2 ^ 384 - 1)]))).src 2 = 384 := by decide +kernel

/-- R105, its example, and the operands exchanged. -/
theorem test_vcmp : (after (exec (.vcmp 0 1) (regs [(0, 2 ^ 320), (1, 2 ^ 320 - 1)]))).cmp = 0b01 ∧
    (after (exec (.vcmp 1 0) (regs [(0, 2 ^ 320), (1, 2 ^ 320 - 1)]))).cmp = 0b11 := by decide +kernel

/-- R106, its example. -/
theorem test_vlshift1 :
    let t := after (exec (.vlshift1 1 0) (regs [(0, 2 ^ 63)]))
    (t.src 1, t.c) = (2 ^ 64, false) := by decide +kernel

/-- R106, its corner case. -/
theorem test_vlshift1_carry :
    let t := after (exec (.vlshift1 0 0) (regs [(0, 2 ^ 383)]))
    (t.src 0, t.c) = (0, true) := by decide +kernel

/-- R107, its example. -/
theorem test_vrshift1 :
    let t := after (exec (.vrshift1 1 0) (regs [(0, 2 ^ 64)]))
    (t.src 1, t.c) = (2 ^ 63, false) := by decide +kernel

/-- R107, its corner case. -/
theorem test_vrshift1_carry :
    let t := after (exec (.vrshift1 1 0) (regs [(0, 1)]))
    (t.src 1, t.c) = (0, true) := by decide +kernel

/-- R108, its example. -/
theorem test_vadd :
    let t := after (exec (.vadd 1 0 1) (regs [(0, 2 ^ 384 - 1), (1, 1)]))
    (t.src 1, t.c) = (0, true) := by decide +kernel

/-- R109, its example. -/
theorem test_vsub :
    let t := after (exec (.vsub 2 0 1) (regs [(0, 5), (1, 7)]))
    (t.src 2, t.c) = (2 ^ 384 - 2, true) := by decide +kernel

/-- R110, its example, with a source inside the destination pair. -/
theorem test_vmul :
    let t := after (exec (.vmul 0 1 1) (regs [(1, 2 ^ 384 - 1)]))
    (t.src 0, t.src 1) = (1, 2 ^ 384 - 2) := by decide +kernel

/-- R111, its example. -/
theorem test_vsqr :
    let t := after (exec (.vsqr 14 0) (regs [(0, 2 ^ 192)]))
    (t.src 14, t.src 15) = (0, 1) := by decide +kernel

/-- R131, its example and its error. -/
theorem test_modadd : (after (exec (.modadd 2 0 1 .p) (regs [(0, fieldPrime - 1), (1, 1), (2, 9)]))).src 2 = 0 ∧
    (after (exec (.modadd 2 0 1 .p) (regs [(0, fieldPrime), (1, 1)]))).err = .range := by decide +kernel

/-- R132, its example. -/
theorem test_modsub : (after (exec (.modsub 2 0 1 .n) (regs [(0, 3), (1, 5)]))).src 2 = groupOrder - 2 := by
  decide +kernel

/-- R134, its example. -/
theorem test_modmul :
    (after (exec (.modmul 2 0 1 .p) (regs [(0, 2), (1, (fieldPrime + 1) / 2)]))).src 2 = 1 := by decide +kernel

/-- R134, its corner case (m − 1)·(m − 1) for m = n. -/
theorem test_modmul_n :
    (after (exec (.modmul 0 0 0 .n) (regs [(0, groupOrder - 1)]))).src 0 = 1 := by decide +kernel

/-- R136, its example. -/
theorem test_modsqr :
    (after (exec (.modsqr 1 0 .p) (regs [(0, 2 ^ 192)]))).src 1 = 2 ^ 128 + 2 ^ 96 - 2 ^ 32 + 1 := by decide +kernel

/-- R139, its example: 2p gives p, not 0. -/
theorem test_redp_multiple :
    (after (exec (.redp 4 0) (regs [(0, 2 * fieldPrime % 2 ^ 384), (1, 2 * fieldPrime / 2 ^ 384)]))).src 4 =
      fieldPrime := by decide +kernel

/-- R138, its corner case 2^384 gives ω. -/
theorem test_redp_fold :
    (after (exec (.redp 4 0) (regs [(1, 1)]))).src 4 = 2 ^ 128 + 2 ^ 96 - 2 ^ 32 + 1 := by decide +kernel

/-- R140, its example. -/
theorem test_modinv : (after (exec (.modinv 1 0 .p) (regs [(0, 2)]))).src 1 = (fieldPrime + 1) / 2 := by
  decide +kernel

/-- R140, its corner cases 0 and m − 1. -/
theorem test_modinv_corners : (after (exec (.modinv 1 0 .n) (regs [(1, 7)]))).src 1 = 0 ∧
    (after (exec (.modinv 1 0 .n) (regs [(0, groupOrder - 1)]))).src 1 = groupOrder - 1 := by decide +kernel

/-- R143, its example. -/
theorem test_modsqrt : (after (exec (.modsqrt 1 0) (regs [(0, 4)]))).src 1 = 2 := by decide +kernel

/-- Vector PT-1: doubling (Gx, Gy, 1) leaves Z = Gy. -/
theorem test_jdbl : (after (exec (.jdbl 0) (regs [(0, genX), (1, genY), (2, 1)]))).src 2 = genY := by decide +kernel

/-- R161: no register changes where Z = 0. -/
theorem test_jdbl_infinity : (after (exec (.jdbl 0) (regs [(0, 5), (1, 6)]))).v = (regs [(0, 5), (1, 6)]).v := by
  decide +kernel

/-- R163, calculated by hand: (2·3², 5·3³), with Z in the pair's second register for the second. -/
theorem test_applyz :
    let t := after (exec (.applyz 0 3) (regs [(0, 2), (1, 5), (3, 3)]))
    let u := after (exec (.applyz 0 1) (regs [(0, 2), (1, 3)]))
    (t.src 0, t.src 1, u.src 0, u.src 1) = (18, 135, 18, 81) := by decide +kernel

/-- R165, calculated by hand on (1, 2) and (3, 5): A = 4, B = 4, C = 12. -/
theorem test_cozadd :
    let t := after (exec (.cozadd 0 2) (regs [(0, 1), (1, 2), (2, 3), (3, 5)]))
    (t.src 0, t.src 1, t.src 2, t.src 3) = (4, 16, fieldPrime - 7, 17) := by decide +kernel

/-- R166: with x1 = x2, the pairs become (0, 0) and ((y2 − y1)², −(y2 − y1)³). -/
theorem test_cozadd_equal_x :
    let t := after (exec (.cozadd 0 2) (regs [(0, 5), (1, 1), (2, 5), (3, 3)]))
    (t.src 0, t.src 1, t.src 2, t.src 3) = (0, 0, 4, fieldPrime - 8) := by decide +kernel

/-- R167, calculated by hand on (1, 2) and (3, 5). -/
theorem test_cozaddc :
    let t := after (exec (.cozaddc 4 2) (regs [(4, 1), (5, 2), (2, 3), (3, 5)]))
    (t.src 4, t.src 5, t.src 2, t.src 3) = (33, 187, fieldPrime - 7, 17) := by decide +kernel

/-- R181 with b = 0, calculated by hand on (1, 2) and (3, 5). -/
theorem test_lstep :
    let t := after (exec (.lstep 0 0) (regs [(0, 1), (1, 2), (2, 3), (3, 5)]))
    (t.src 0, t.src 1, t.src 2, t.src 3) =
      (fieldPrime - 12700, fieldPrime - 833000, fieldPrime - 11200, 1088000) := by decide +kernel

/-- Vector SM-2: [2]G; with an initial Z the result is the same (R188). -/
theorem test_smul :
    let t := after (exec (.smul 4 0 2 none) (regs [(0, genX), (1, genY), (2, 2)]))
    let u := after (exec (.smul 4 0 2 (some 3)) (regs [(0, genX), (1, genY), (2, 2), (3, 7)]))
    (t.src 4, t.src 5, u.src 4, u.src 5) = (twoGx, twoGy, twoGx, twoGy) := by decide +kernel

/-- R184 and R185: k = 0 gives (0, 0); a point off the curve is MALFORMED; z0 = 0 is RANGE. -/
theorem test_smul_corners :
    let t := after (exec (.smul 4 0 2 none) (regs [(0, genX), (1, genY), (4, 1), (5, 1)]))
    (t.src 4, t.src 5) = (0, 0) ∧
    (after (exec (.smul 4 0 2 none) (regs [(0, 1), (1, 1)]))).err = .malformed ∧
    (after (exec (.smul 4 0 2 (some 3)) (regs [(0, genX), (1, genY)]))).err = .range := by decide +kernel

/-- R202, its example. -/
theorem test_loadb : (after (exec (.loadb 1 3) (State.reset.writeBuf 3 [0x80]))).src 1 = 2 ^ 383 := by
  decide +kernel

/-- R203, its example, at the last legal offset. -/
theorem test_storeb :
    let t := after (exec (.storeb 0 464) (regs [(0, 0x0102)]))
    (t.buf.read 510, t.buf.read 511, t.buf.read 509) = (0x01, 0x02, 0x00) := by decide +kernel

/-- R205, its example (vector CD-1). -/
theorem test_pcomp :
    let t := after (exec (.pcomp 0 0x100) (regs [(0, genX), (1, genY)]))
    (t.buf.read 0x100, t.buf.read 0x101, t.buf.read 0x130) = (0x03, 0xAA, 0xB7) := by decide +kernel

/-- R206, its example (vector CD-6). -/
theorem test_pdecomp :
    let t := after (exec (.pdecomp 0 0) (keyed 0))
    (t.src 0, t.src 1) = (genX, genY) := by decide +kernel

/-- R206: x = 1 is no x-coordinate of the curve; a prefix of 0x04 is MALFORMED (vector CD-5). -/
theorem test_pdecomp_malformed :
    (after (exec (.pdecomp 0 0) (State.reset.writeBuf 0 (0x02 :: be48 1)))).err = .malformed ∧
    (after (exec (.pdecomp 0 0) (State.reset.writeBuf 0 (0x04 :: be48 genX)))).err = .malformed := by decide +kernel

/-- R224, its example (vector KG-1): candidates 0, n, 1. -/
theorem test_keygen :
    let words := candidateWords 0 ++ [0xFFFFFFFFFFFFFFFF, 0xFFFFFFFFFFFFFFFF, 0xFFFFFFFFFFFFFFFF, 0xC7634D81F4372DDF,
      0x581A0DB248B0A77A, 0xECEC196ACCC52973] ++ candidateWords 1
    let t := after (exec .keygen { State.reset with entropy := words })
    (t.err, t.draws, t.bufInt 0x040, t.buf.read 0, t.bufInt 1) = (.ok, 3, 1, 0x03, genX) := by decide +kernel

/-- R225, its example (vector SG-1): d = 1, e = 0, k = 1 gives r = s = Gx mod n. -/
theorem test_sign :
    let t := after (exec .sign { keyed 1 with entropy := candidateWords 1 })
    (t.err, t.draws, t.bufInt 0x0C0, t.bufInt 0x0F0) = (.ok, 1, genX % groupOrder, genX % groupOrder) := by
  decide +kernel

/-- R225: a secret of 0 is MALFORMED with no draw (R223). -/
theorem test_sign_malformed :
    let t := after (exec .sign { keyed 0 with entropy := candidateWords 1 })
    (t.err, t.draws) = (.malformed, 0) := by decide +kernel

/-- R232, its example (vector VF-1): the signature of SG-1 is accepted. -/
theorem test_verify :
    let t := after (exec .verify
      (((keyed 1).writeBuf 0x0C0 (be48 (genX % groupOrder))).writeBuf 0x0F0 (be48 (genX % groupOrder))))
    (t.err, t.vok) = (.ok, true) := by decide +kernel

/-- R229 and R228: r = 0 is a rejection without an error; a malformed key is MALFORMED with VOK = 0. -/
theorem test_verify_reject :
    let t := after (exec .verify { keyed 1 with vok := true })
    let u := after (exec .verify { State.reset with vok := true })
    (t.err, t.vok, u.err, u.vok) = (.ok, false, .malformed, false) := by decide +kernel

/-- R233, its example (vector DH-1). -/
theorem test_ecdh :
    let t := after (exec .ecdh { keyed 2 with entropy := candidateWords 1 })
    (t.err, t.draws, t.bufInt 0x140) = (.ok, 1, twoGx) := by decide +kernel

/-- R64: without entropy ECDH stays BUSY, with ent_ready up. -/
theorem test_ecdh_waits :
    let t := after (exec .ecdh (running (keyed 2) 0x53))
    (t.phase, t.entReady) = (.busy, true) := by decide +kernel

/-! ### One event each -/

/-- The reset state with one event to come. -/
def coming (e : Event) : State := { State.reset with env := [e] }

/-- R33 and R35: a write to CMD starts the command; DRAWS and irq are as they were. -/
theorem test_cmd_write :
    let t := after (step { coming (.hostWrite 0x018 8 0x50) with done := true, err := .range })
    (t.cmd, t.phase, t.done, t.err, t.entReady) = (0x50, .busy, false, .ok, true) := by decide +kernel

/-- R290: a write to V while BUSY is dropped and sets OVR. -/
theorem test_dropped_write :
    let t := after (step (running (coming (.hostWrite 0x100 8 5)) 0x50))
    (t.ovr, t.src 0) = (true, 0) := by decide +kernel

/-- R53, its example: V3.w[5] is at 0x1B8. -/
theorem test_v_write : (after (step (coming (.hostWrite 0x1B8 8 1)))).src 3 = 2 ^ 320 := by decide +kernel

/-- R58, its example: eight bytes 0x11 to 0x88 read as one word. -/
theorem test_buf_lanes :
    let s := State.reset.writeBuf 0 [0x11, 0x22, 0x33, 0x44, 0x55, 0x66, 0x77, 0x88]
    (after (step { s with env := [.hostRead 0x400 8] })).rdata = 0x8877665544332211 := by decide +kernel

/-- R258: writing IEN = 1 while DONE = 1 raises irq at once. -/
theorem test_irq_level :
    (after (step { coming (.hostWrite 0x008 8 1) with done := true })).irq = true := by decide +kernel

/-- R282: a soft reset ends a command that waits for entropy, and clears IEN whatever bit 0 is. -/
theorem test_soft_reset :
    let t := after (step { running (coming (.hostWrite 0x008 8 3)) 0x50 with ien := true })
    (t.phase, t.ien, t.cmd) = (.idle, false, 0) := by decide +kernel

/-- The placed word is what the very next step runs: VISZERO v0 after reset sets Z. -/
theorem test_placed_word : (after (step (State.reset.withFetchWord 64 0x09))).z = true := by decide +kernel

/-! ### Premises that can be met. Each theorem gives, for the claim it is named after, a state and operands that meet
every premise of a clause, at an end of the range where there is one. -/

theorem pub_isPoint (d : Nat) (h : (keyed d).bufInt 1 = genX) (h' : (keyed d).buf.read 0 = 0x03) :
    (keyed d).HoldsPoint 0x000 genX genY :=
  ⟨by rw [h']; decide, h, by decide, by decide, by unfold curveEquation; decide +kernel⟩

theorem keyed_one_isPoint : (keyed 1).HoldsPoint 0x000 genX genY :=
  pub_isPoint 1 (by decide +kernel) (by decide +kernel)

theorem keyed_two_isPoint : (keyed 2).HoldsPoint 0x000 genX genY :=
  pub_isPoint 2 (by decide +kernel) (by decide +kernel)

theorem holdsPoint_of_buf {s t : State} {off x y : Nat} (h : t.buf = s.buf) (hp : s.HoldsPoint off x y) :
    t.HoldsPoint off x y :=
  ⟨by rw [h]; exact hp.pre, by rw [State.bufInt, h]; exact hp.xBytes, hp.xReduced, hp.yBound, hp.root⟩

theorem reset_isNoPoint (off : Nat) : ¬∃ x y, State.reset.HoldsPoint off x y := by
  rintro ⟨x, y, h⟩
  have := h.pre
  simp [State.reset, Memory.read, bufDefault] at this
  omega

/-- Words of zeros make candidates of zeros, before whatever follows. -/
theorem candidates_zeros : ∀ (k : Nat) (ws : List Word64),
    candidates (List.replicate (6 * k) 0 ++ ws) = List.replicate k 0 ++ candidates ws
  | 0, _ => rfl
  | k + 1, ws => by
    rw [show 6 * (k + 1) = 6 * k + 1 + 1 + 1 + 1 + 1 + 1 by omega]
    simp only [List.replicate_succ, List.cons_append, candidates, candidates_zeros k ws]
    rfl

theorem witness_EncodedCommandsDecode :
    Instr.wellFormed (.cozadd 0 14) = true ∧ Instr.wellFormed (.lstep 12 1) = true ∧
      Instr.wellFormed (.pdecomp 14 463) = true := by decide

theorem witness_AcceptedWordIsItsEncoding : decode 0x000001CF0000E043 = .error .illegalOperand ∧
    decode 0x000001CF00000E43 = .ok (.pdecomp 14 463) := by decide

theorem witness_UnknownOpcodesAreIllegal :
    let s := running State.reset 0xFF
    s.rst = false ∧ s.phase = .busy ∧ s.coreIsNext ∧ decode s.cmd = .error .illegalOpcode :=
  ⟨rfl, rfl, .inl rfl, by decide⟩

theorem witness_FailedDecodeCommitsNothing :
    let s := running (coming .coreTurn) 0x8000000000000000
    s.rst = false ∧ s.phase = .busy ∧ s.coreIsNext ∧ decode s.cmd = .error .illegalOperand :=
  ⟨rfl, rfl, .inr ⟨[], rfl⟩, by decide⟩

theorem witness_IllFormedCommandsFail : Instr.wellFormed (.jdbl 14) = false := by decide

theorem witness_StepRunsTheDecodedCommand :
    let s := running (coming .coreTurn) 0x0000000001010222
    s.rst = false ∧ s.phase = .busy ∧ s.coreIsNext ∧ decode s.cmd = .ok (.modmul 2 0 1 .n) :=
  ⟨rfl, rfl, .inr ⟨[], rfl⟩, by decide⟩

/-- A state that waits for entropy is consistent, and its step is a next state. -/
theorem witness_StepKeepsConsistent :
    let s := { running State.reset 0x50 with entReady := true }
    s.Consistent ∧ ∃ t, step s = .next t :=
  ⟨⟨by decide, by unfold State.irqDriven; decide, by unfold State.entReadyDriven; decide +kernel, fun _ => ⟨rfl, rfl⟩,
    fun h => by simp [running] at h, by decide, by decide⟩, ⟨_, rfl⟩⟩

theorem witness_OperandsStayWhileBusy :
    let s := running State.reset 0x50
    s.phase = .busy ∧ step s = .next { s with entReady := true } := ⟨rfl, rfl⟩

theorem witness_FailedCommandWritesNothing :
    let s := running (regs [(0, fieldPrime)]) 0x20
    let t := after (exec (.modadd 0 0 0 .p) s)
    s.phase = .busy ∧ t.phase = .idle ∧ t.err = .range := by decide +kernel

theorem witness_CommandsWithoutDrawsCompleteAtOnce : drawsEntropy .verify = false := by decide

theorem witness_EnoughEntropyEndsEveryCommand :
    6 * 1024 ≤ ({ State.reset with entropy := List.replicate 6144 0 } : State).entropy.length :=
  (List.length_replicate ..).ge

theorem witness_DrawingCommandsWaitForEntropy :
    let s := running (keyed 1) 0x51
    s.phase = .busy ∧ (∀ c ∈ candidates s.entropy, c = 0) ∧ (candidates s.entropy).length < 1024 ∧
      1 ≤ s.bufInt 0x040 ∧ s.bufInt 0x040 < groupOrder ∧ s.HoldsPoint 0x000 genX genY := by
  refine ⟨running_phase _ _, ?_, ?_, ?_, ?_, holdsPoint_of_buf (running_buf _ _) keyed_one_isPoint⟩ <;> decide +kernel

/-- At the other end of its range, 1023 rejected candidates. -/
theorem witness_DrawingCommandsWaitForEntropy_last (k : Nat) (hk : k < 1024) :
    (∀ c ∈ candidates (List.replicate (6 * k) 0 ++ []), c = 0) ∧
      (candidates (List.replicate (6 * k) 0 ++ [])).length < 1024 := by
  rw [candidates_zeros]
  simpa [candidates] using hk

/-- The six words of any candidate. -/
def drawWords (c : Nat) : List Word64 := (List.range 6).map fun j => BitVec.ofNat 64 (c / 2 ^ (64 * (5 - j)))

/-- Rejected candidates that are not 0: n for KEYGEN and SIGN, p for ECDH, and for SIGN the nonce 1 where e = −r·d, so
that s = 0. -/
theorem witness_DrawingCommandsWaitForEntropy_nonzero :
    candidates (drawWords groupOrder) = [groupOrder] ∧ candidates (drawWords fieldPrime) = [fieldPrime] ∧
      (let s := { (keyed 1).writeBuf 0x080 (be48 (groupOrder - genX)) with entropy := candidateWords 1 }
       s.bufInt 0x040 = 1 ∧ candidates s.entropy = [1] ∧ (Point.mul 1 generator).x % groupOrder ≠ 0 ∧
         (s.bufInt 0x080 + (Point.mul 1 generator).x % groupOrder * 1) % groupOrder = 0) := by decide +kernel

/-- A host write at any place, from IDLE and from BUSY. -/
theorem witness_hostWrites (off : BitVec 12) (size : Nat) (d : Word64) :
    (coming (.hostWrite off size d)).hostWrites off size d ∧ (coming (.hostWrite off size d)).phase = .idle ∧
      (running (coming (.hostWrite off size d)) 0).hostWrites off size d ∧
      (running (coming (.hostWrite off size d)) 0).phase = .busy :=
  ⟨⟨rfl, [], rfl⟩, rfl, ⟨rfl, [], rfl⟩, rfl⟩

/-- A host read at any place, from IDLE and from BUSY. -/
theorem witness_hostReads (off : BitVec 12) (size : Nat) :
    (coming (.hostRead off size)).hostReads off size ∧ (coming (.hostRead off size)).phase = .idle ∧
      (running (coming (.hostRead off size)) 0).hostReads off size ∧
      (running (coming (.hostRead off size)) 0).phase = .busy :=
  ⟨⟨rfl, [], rfl⟩, rfl, ⟨rfl, [], rfl⟩, rfl⟩

theorem witness_CmdWriteIssuesACommand (w : Word64) :
    (coming (.hostWrite 0x018 8 w)).hostWrites 0x018 8 w ∧ (coming (.hostRead 0x018 8)).hostReads 0x018 8 :=
  ⟨(witness_hostWrites 0x018 8 w).1, (witness_hostReads 0x018 8).1⟩

/-- Both ends of V and of BUF, the ends of BUF by bytes, and CMD, each while BUSY; a CTRL write with SRST = 0 and a
STATUS write while BUSY. -/
theorem witness_BusyHostWritesAreDropped (d : Word64) :
    (∀ off ∈ [(0x100 : BitVec 12), 0x3F8, 0x400, 0x5F8],
      (running (coming (.hostWrite off 8 d)) 0x50).hostWrites off 8 d ∧
      (running (coming (.hostWrite off 8 d)) 0x50).phase = .busy ∧
      off.toNat % 8 = 0 ∧ 0x100 ≤ off.toNat ∧ off.toNat ≤ 0x5FF) ∧
    (∀ off ∈ [(0x400 : BitVec 12), 0x5FF],
      (running (coming (.hostWrite off 1 d)) 0x50).hostWrites off 1 d ∧ 0x400 ≤ off.toNat ∧ off.toNat ≤ 0x5FF) ∧
    (running (coming (.hostWrite 0x018 8 d)) 0x50).hostWrites 0x018 8 d ∧
    (running (coming (.hostWrite 0x008 8 1)) 0x50).hostWrites 0x008 8 1 ∧ (1 : Word64).getLsbD 1 = false ∧
    (running (coming (.hostWrite 0x010 8 d)) 0x50).hostWrites 0x010 8 d := by
  refine ⟨fun off h => ⟨⟨rfl, [], rfl⟩, rfl, ?_⟩, fun off h => ⟨⟨rfl, [], rfl⟩, ?_⟩, ⟨rfl, [], rfl⟩, ⟨rfl, [], rfl⟩,
    by decide, ⟨rfl, [], rfl⟩⟩
  · revert off
    decide
  · revert off
    decide

theorem witness_ReadsAndReadOnlyRegisters (d : Word64) :
    (coming (.hostRead 0x000 8)).hostReads 0x000 8 ∧ (coming (.hostRead 0x020 8)).hostReads 0x020 8 ∧
      (coming (.hostWrite 0x020 8 d)).hostWrites 0x020 8 d :=
  ⟨(witness_hostReads 0x000 8).1, (witness_hostReads 0x020 8).1, (witness_hostWrites 0x020 8 d).1⟩

theorem witness_CtrlRegister :
    (coming (.hostRead 0x008 8)).hostReads 0x008 8 ∧
    ((coming (.hostWrite 0x008 8 1)).hostWrites 0x008 8 1 ∧ (1 : Word64).getLsbD 1 = false) ∧
    ((coming (.hostWrite 0x008 8 2)).hostWrites 0x008 8 2 ∧ (2 : Word64).getLsbD 1 = true) :=
  ⟨⟨rfl, [], rfl⟩, ⟨⟨rfl, [], rfl⟩, by decide⟩, ⟨⟨rfl, [], rfl⟩, by decide⟩⟩

theorem witness_StatusRegister (d : Word64) :
    (coming (.hostRead 0x010 8)).hostReads 0x010 8 ∧ (coming (.hostWrite 0x010 8 d)).hostWrites 0x010 8 d :=
  ⟨(witness_hostReads 0x010 8).1, (witness_hostWrites 0x010 8 d).1⟩

/-- The first and the last word: V0.w[0] and V15.w[5]. -/
theorem witness_OperandRegisterWords (d : Word64) :
    (coming (.hostWrite (BitVec.ofNat 12 (0x100 + 48 * 0 + 8 * 0)) 8 d)).hostWrites 0x100 8 d ∧
    (coming (.hostWrite (BitVec.ofNat 12 (0x100 + 48 * 15 + 8 * 5)) 8 d)).hostWrites 0x3F8 8 d :=
  ⟨⟨rfl, [], rfl⟩, ⟨rfl, [], rfl⟩⟩

/-- The first and the last lane word and byte of BUF. -/
theorem witness_BufferLanes (d : Word64) :
    (coming (.hostWrite (BitVec.ofNat 12 (0x400 + 8 * 63)) 8 d)).hostWrites 0x5F8 8 d ∧
    (coming (.hostWrite (BitVec.ofNat 12 (0x400 + 511)) 1 d)).hostWrites 0x5FF 1 d ∧
    (coming (.hostWrite 0x400 8 d)).buf.wf = true :=
  ⟨⟨rfl, [], rfl⟩, ⟨rfl, [], rfl⟩, rfl⟩

/-- A reserved offset at each edge, a misaligned access, a 1-byte access outside BUF, another size. -/
theorem witness_UnperformedAccesses (d : Word64) :
    ∀ p ∈ [((0x028 : BitVec 12), 8), (0x0F8, 8), (0x600, 8), (0xFF8, 8), (0x101, 8), (0x3FF, 1), (0x600, 1), (0x400, 4)],
      ((coming (.hostWrite p.1 p.2 d)).hostWrites p.1 p.2 d ∧ (coming (.hostRead p.1 p.2)).hostReads p.1 p.2) ∧
      ¬(p.2 = 8 ∧ p.1.toNat % 8 = 0 ∧ p.1.toNat < 0x028) ∧
      ¬(p.2 = 8 ∧ p.1.toNat % 8 = 0 ∧ 0x100 ≤ p.1.toNat ∧ p.1.toNat < 0x600) ∧
      ¬(p.2 = 1 ∧ 0x400 ≤ p.1.toNat ∧ p.1.toNat < 0x600) := by
  refine fun p h => ⟨⟨⟨rfl, [], rfl⟩, ⟨rfl, [], rfl⟩⟩, ?_⟩
  revert p
  decide

theorem witness_HardReset :
    (coming (.rst true)).env = .rst true :: [] ∧ ({ coming .coreTurn with rst := true } : State).rst = true ∧
      (∀ level, Event.coreTurn ≠ .rst level) ∧
      ({ State.reset with env := [.rst false, .hostWrite 0x018 8 7] } : State).env =
        .rst false :: .hostWrite 0x018 8 7 :: [] := ⟨rfl, rfl, fun _ h => by simp at h, rfl⟩

theorem witness_EntropyWordsMakeCandidates (w : Word64) :
    let s := { running (coming (.entropyWord w)) 0x50 with entReady := true }
    s.rst = false ∧ s.env = .entropyWord w :: [] ∧ s.entReady = true ∧ (coming (.entropyWord w)).entReady = false :=
  ⟨rfl, rfl, rfl, rfl⟩

/-- The words 0x100 and 0x101 have the opcodes of NOP and ZEROIZE and are not theirs. -/
theorem witness_systemWords : (0x100 : Word64).toNat % 256 = 0 ∧ (0x100 : Word64) ≠ 0 ∧
    (0x101 : Word64).toNat % 256 = 1 ∧ (0x101 : Word64) ≠ 1 := by decide

/-- The last legal immediates and groups, of VTESTBIT, VMUL and VSQR, REDP, LDC, LOADB and STOREB, PCOMP and PDECOMP,
with BUF in canonical form. -/
theorem witness_operandRanges : (383 : Imm).toNat ≤ 383 ∧ (14 : Reg).toNat ≤ 14 ∧ (7 : Imm).toNat ≤ 7 ∧
    (464 : Imm).toNat ≤ 464 ∧ (463 : Imm).toNat ≤ 463 ∧ State.reset.buf.wf = true := by decide

/-- VCMP's three cases. -/
theorem witness_TestsAndCompare :
    let s := regs [(0, 5), (1, 5), (2, 6)]
    s.src 0 = s.src 1 ∧ s.src 0 < s.src 2 := by decide +kernel

/-- Reduced and unreduced sources, for both moduli, at the edge: m − 1 and m. -/
theorem witness_modularSources :
    let s := regs [(0, fieldPrime - 1), (1, fieldPrime), (2, groupOrder - 1), (3, groupOrder)]
    s.src 0 < modulusValue .p ∧ modulusValue .p ≤ s.src 1 ∧ s.src 2 < modulusValue .n ∧ modulusValue .n ≤ s.src 3 ∧
      s.src 0 ≠ 0 ∧ s.src 4 = 0 := by decide +kernel

/-- FastReduce has an input of each kind: 0, p and p + 1 are at the end of their loops or one turn before it. -/
theorem witness_FastReduceClosedForm :
    ReducesTo 0 0 ∧ ReducesTo fieldPrime fieldPrime ∧ ReducesTo (fieldPrime + 1) 1 := by
  have h : (fieldPrime + 1) / 2 ^ 384 = 0 := by decide +kernel
  have h' : fieldPrime / 2 ^ 384 = 0 := by decide +kernel
  exact ⟨⟨0, .stop 0 (by decide), .stop 0 (by decide)⟩, ⟨_, .stop _ h', .stop _ (by decide)⟩,
    ⟨_, .stop _ h, .turn _ _ (by decide) (by rw [Nat.add_sub_cancel_left]; exact .stop 1 (by decide))⟩⟩

/-- No integer squares to p − 1 mod p, since p ≡ 3 (mod 4). -/
theorem no_root_of_minus_one : ¬∃ y, y ^ 2 % fieldPrime = fieldPrime - 1 := by
  rintro ⟨y, hy⟩
  have := Fact.mk fieldPrime_prime
  have hsq : IsSquare (-1 : ZMod fieldPrime) := by
    refine ⟨(y : ZMod fieldPrime), ?_⟩
    have hcast : ((y ^ 2 % fieldPrime : Nat) : ZMod fieldPrime) = ((fieldPrime - 1 : Nat) : ZMod fieldPrime) := by
      rw [hy]
    rw [ZMod.natCast_mod, Nat.cast_pow, Nat.cast_sub fieldPrime_pos, ZMod.natCast_self] at hcast
    rw [← pow_two, hcast]
    simp
  exact ZMod.exists_sq_eq_neg_one_iff.1 hsq fieldPrime_mod_four

/-- A residue and a non-residue: 4 = 2², and p − 1 (R143); a source that is not reduced. -/
theorem witness_ModularSquareRoot :
    let s := regs [(0, 4), (1, fieldPrime - 1), (2, fieldPrime)]
    (∃ y, y ^ 2 % fieldPrime = s.src 0) ∧ s.src 0 < fieldPrime ∧ (¬∃ y, y ^ 2 % fieldPrime = s.src 1) ∧
      s.src 1 < fieldPrime ∧ fieldPrime ≤ s.src 2 := by
  refine ⟨⟨2, by decide +kernel⟩, by decide +kernel, ?_, by decide +kernel, by decide +kernel⟩
  rw [show (regs [(0, 4), (1, fieldPrime - 1), (2, fieldPrime)]).src 1 = fieldPrime - 1 by decide +kernel]
  exact no_root_of_minus_one

/-- JDBL: a reduced triple, one with Z = 0, and one with X = p. -/
theorem witness_JdblRunsTheFormulas :
    let s := regs [(13, genX), (14, genY), (15, 1), (0, 5), (1, 6), (5, fieldPrime)]
    s.srcAt 13 0 < fieldPrime ∧ s.srcAt 13 1 < fieldPrime ∧ s.srcAt 13 2 < fieldPrime ∧ s.srcAt 13 2 ≠ 0 ∧
      s.srcAt 0 2 = 0 ∧ fieldPrime ≤ s.srcAt 5 0 := by decide +kernel

theorem witness_JdblDoublesThePoint :
    let s := regs [(0, genX), (1, genY), (2, 1)]
    (s.srcAt 0 0 < fieldPrime ∧ s.srcAt 0 1 < fieldPrime ∧ s.srcAt 0 2 < fieldPrime) ∧
      exec (.jdbl 0) s = .next (after (exec (.jdbl 0) s)) := ⟨by decide +kernel, exec_after _ _⟩

/-- APPLYZ, COZADD, COZADDC and LSTEP: reduced and unreduced co-ordinates, legal groups. -/
theorem witness_pointOperands :
    let s := regs [(0, 1), (1, 2), (2, 3), (3, 5), (4, fieldPrime)]
    (∀ k, k < 4 → s.srcAt 0 k < fieldPrime) ∧ fieldPrime ≤ s.srcAt 4 0 ∧ fieldPrime ≤ s.srcAt 1 3 ∧
      Instr.wellFormed (.cozadd 0 2) = true ∧ Instr.wellFormed (.cozadd 14 12) = true := by decide +kernel

theorem witness_CozCommandsAddThePoints :
    let s := regs [(0, 1), (1, 2), (2, 3), (3, 5)]
    Instr.wellFormed (.cozadd 0 2) = true ∧ (∀ k, k < 2 → s.srcAt 0 k < fieldPrime ∧ s.srcAt 2 k < fieldPrime) ∧
      1 < fieldPrime ∧ s.srcAt 0 0 ≠ s.srcAt 2 0 := by decide +kernel

/-- The ladder at (G, [2]G) with Z = 1, for both bits (vector LD-1 takes the same points). -/
theorem witness_LadderStepAdvances (imm : Imm) (himm : imm = 0 ∨ imm = 1) :
    let s := regs [(0, genX), (1, genY), (2, twoGx), (3, twoGy)]
    let S0 := jacobianPoint (s.srcAt 0 0) (s.srcAt 0 1) 1
    let S1 := jacobianPoint (s.srcAt 0 2) (s.srcAt 0 3) 1
    let D := if imm = 0 then S0.add S1.neg else S1.add S0.neg
    imm.toNat ≤ 1 ∧ (∀ k, k < 4 → s.srcAt 0 k < fieldPrime) ∧ S0.onE ∧ S1.onE ∧ S0 ≠ S1 ∧ S0 ≠ S1.neg ∧
      S0.add S1 ≠ D ∧ S0.add S1 ≠ D.neg := by
  have h0 : jacobianPoint ((regs [(0, genX), (1, genY), (2, twoGx), (3, twoGy)]).srcAt 0 0)
      ((regs [(0, genX), (1, genY), (2, twoGx), (3, twoGy)]).srcAt 0 1) 1 = .affine genX genY := by decide +kernel
  have h1 : jacobianPoint ((regs [(0, genX), (1, genY), (2, twoGx), (3, twoGy)]).srcAt 0 2)
      ((regs [(0, genX), (1, genY), (2, twoGx), (3, twoGy)]).srcAt 0 3) 1 = .affine twoGx twoGy := by decide +kernel
  simp only [h0, h1]
  refine ⟨by rcases himm with rfl | rfl <;> decide, by decide +kernel, ⟨by decide, by decide, by decide +kernel⟩,
    ⟨by decide, by decide, by decide +kernel⟩, by decide +kernel, by decide +kernel, ?_, ?_⟩ <;>
  rcases himm with rfl | rfl <;> decide +kernel

/-- SMUL: a point on the curve, (0, 0), a point off the curve, an unreduced co-ordinate, a Z of 0. -/
theorem witness_SmulIsTheGroupMultiple :
    let s := regs [(0, genX), (1, genY), (2, 7), (4, 1), (5, 1), (6, fieldPrime)]
    s.srcAt 0 0 < fieldPrime ∧ s.srcAt 0 1 < fieldPrime ∧ s.src 2 ≠ 0 ∧ s.src 2 < fieldPrime ∧
      curveEquation (s.srcAt 0 0) (s.srcAt 0 1) ∧ ¬curveEquation (s.srcAt 4 0) (s.srcAt 4 1) ∧
      (s.srcAt 8 0 = 0 ∧ s.srcAt 8 1 = 0) ∧ fieldPrime ≤ s.srcAt 6 0 ∧ s.src 9 = 0 := by
  unfold curveEquation
  decide +kernel

theorem witness_PdecompReadsTheCurvePoint :
    (keyed 1).HoldsPoint (0 : Imm).toNat genX genY ∧ ¬∃ x y, State.reset.HoldsPoint (463 : Imm).toNat x y :=
  ⟨keyed_one_isPoint, reset_isNoPoint _⟩

theorem witness_ByteRoundTrips :
    let s := regs [(0, genX), (1, genY)]
    s.buf.wf = true ∧ s.srcAt 0 0 < fieldPrime ∧ s.srcAt 0 1 < fieldPrime ∧
      curveEquation (s.srcAt 0 0) (s.srcAt 0 1) ∧ (keyed 1).buf.wf = true := by
  unfold curveEquation
  decide +kernel

/-- KEYGEN: 1 kept after k rejected candidates, for k up to 1023, and k rejected candidates alone, for k = 1024. -/
theorem witness_KeygenWritesAKeyPair (k : Nat) :
    candidates (List.replicate (6 * k) 0 ++ candidateWords 1) = List.replicate k 0 ++ 1 :: [] ∧
      (List.replicate k 0).length = k ∧ Point.mul 1 generator = .affine genX genY ∧ State.reset.buf.wf = true ∧
      candidates (List.replicate (6 * k) 0 ++ []) = List.replicate k 0 ++ [] ∧
      ∀ c ∈ List.replicate k 0, c = 0 := by
  refine ⟨?_, by simp, by decide +kernel, rfl, ?_, fun c hc => (List.mem_replicate.1 hc).2⟩
  · rw [candidates_zeros]
    rfl
  · rw [candidates_zeros]
    rfl

/-- SIGN: d = 1, e = 0, k = 1, r = s = Gx mod n; and a secret of 0, and of n. -/
theorem witness_SignWritesTheSignature :
    let s := { keyed 1 with entropy := candidateWords 1 }
    let r := genX % groupOrder
    s.bufInt 0x040 = 1 ∧ s.bufInt 0x080 = 0 ∧ candidates s.entropy = [] ++ 1 :: [] ∧ s.buf.wf = true ∧
      Point.mul 1 generator = .affine genX genY ∧ r ≠ 0 ∧ r < groupOrder ∧
      r * 1 % groupOrder = (0 + r * 1) % groupOrder ∧ (keyed 0).bufInt 0x040 = 0 ∧
      groupOrder ≤ (keyed groupOrder).bufInt 0x040 := by decide +kernel

theorem witness_VerifyDecidesTheSignature :
    (keyed 1).HoldsPoint 0x000 genX genY ∧ ¬∃ x y, State.reset.HoldsPoint 0x000 x y :=
  ⟨keyed_one_isPoint, reset_isNoPoint _⟩

/-- ECDH: d = 2 with PUB = compress(G); the blinding values 1 and p − 1 are in range. -/
theorem witness_EcdhWritesTheSharedSecret :
    let s := { keyed 2 with entropy := candidateWords 1 }
    s.bufInt 0x040 = 2 ∧ (keyed 2).HoldsPoint 0x000 genX genY ∧ candidates s.entropy = [] ++ 1 :: [] ∧
      s.buf.wf = true ∧ 1 ≤ fieldPrime - 1 ∧ (keyed 0).bufInt 0x040 = 0 :=
  ⟨by decide +kernel, keyed_two_isPoint, by decide, by decide +kernel, by decide, by decide +kernel⟩

theorem generator_onE : generator.onE := ⟨by decide, by decide, by decide +kernel⟩

theorem witness_PointAddIsAGroupLaw : generator.onE ∧ Point.onE .infinity := ⟨generator_onE, trivial⟩

theorem witness_MulIsRepeatedAddition : generator.onE ∧ 0 < 2 ^ 384 := ⟨generator_onE, by decide⟩

/-- The state of the signing witness: SECRET = 1, PUB = compress(G), a nonce of 1 at hand. -/
def signing : State := supplied (keyed 1) 0x51 (candidateWords 1)

theorem witness_SignThenVerifyAccepts :
    signing.buf.wf = true ∧ signing.phase = .busy ∧
      Point.mul (signing.bufInt 0x040) generator = .affine genX genY ∧ signing.HoldsPoint 0x000 genX genY ∧
      exec .sign signing = .next (after (exec .sign signing)) ∧ (after (exec .sign signing)).phase = .idle ∧
      (after (exec .sign signing)).err = .ok :=
  ⟨by decide +kernel, by decide, by decide +kernel,
    holdsPoint_of_buf (supplied_buf _ _ _) keyed_one_isPoint,
    exec_after _ _, by decide +kernel, by decide +kernel⟩

/-- The first party: dA = 1, with QB = [2]G in PUB. -/
def partyA : State :=
  supplied ((State.reset.writeBuf 0x000 (0x02 :: be48 twoGx)).writeBuf 0x040 (be48 1)) 0x53 (candidateWords 1)

/-- The second party: dB = 2, with QA = G in PUB. -/
def partyB : State := supplied (keyed 2) 0x53 (candidateWords 1)

theorem partyA_isPoint : partyA.HoldsPoint 0x000 twoGx twoGy :=
  ⟨by decide +kernel, by decide +kernel, by decide, by decide, by unfold curveEquation; decide +kernel⟩

theorem witness_EcdhAgrees :
    partyA.buf.wf = true ∧ partyB.buf.wf = true ∧ partyA.phase = .busy ∧ partyB.phase = .busy ∧
      Point.mul (partyA.bufInt 0x040) generator = .affine genX genY ∧
      Point.mul (partyB.bufInt 0x040) generator = .affine twoGx twoGy ∧ partyA.HoldsPoint 0x000 twoGx twoGy ∧
      partyB.HoldsPoint 0x000 genX genY ∧ exec .ecdh partyA = .next (after (exec .ecdh partyA)) ∧
      exec .ecdh partyB = .next (after (exec .ecdh partyB)) ∧ (after (exec .ecdh partyA)).phase = .idle ∧
      (after (exec .ecdh partyB)).phase = .idle ∧ (after (exec .ecdh partyA)).err = .ok ∧
      (after (exec .ecdh partyB)).err = .ok :=
  ⟨by decide +kernel, by decide +kernel, by decide, by decide, by decide +kernel, by decide +kernel, partyA_isPoint,
    holdsPoint_of_buf (supplied_buf _ _ _) keyed_two_isPoint, exec_after _ _, exec_after _ _, by decide +kernel,
    by decide +kernel, by decide +kernel, by decide +kernel⟩

/-- A flag a command writes, and one it leaves. -/
theorem witness_FlagsHaveOnlyTheirWriters :
    exec (.viszero 0) State.reset = .next (after (exec (.viszero 0) State.reset)) ∧
      (after (exec (.viszero 0) State.reset)).z ≠ State.reset.z := ⟨exec_after _ _, by decide +kernel⟩

end Sys2Proof.Tests
end

/-! # The step of a host access, and the claims about CMD and CTRL -/

namespace Sys2Proof.Machine

/-! ### The state an event works on -/

section Past

variable (s : State)

theorem State.past_of_env_cons {e : Event} {rest : List Event} (h : s.env = e :: rest) :
    s.past = { s with env := rest } := by
  rw [State.past, h, List.tail_cons]

@[simp] theorem State.past_v : s.past.v = s.v := rfl
@[simp] theorem State.past_buf : s.past.buf = s.buf := rfl
@[simp] theorem State.past_ien : s.past.ien = s.ien := rfl
@[simp] theorem State.past_phase : s.past.phase = s.phase := rfl
@[simp] theorem State.past_done : s.past.done = s.done := rfl
@[simp] theorem State.past_ovr : s.past.ovr = s.ovr := rfl
@[simp] theorem State.past_err : s.past.err = s.err := rfl
@[simp] theorem State.past_z : s.past.z = s.z := rfl
@[simp] theorem State.past_c : s.past.c = s.c := rfl
@[simp] theorem State.past_cmp : s.past.cmp = s.cmp := rfl
@[simp] theorem State.past_bit : s.past.bit = s.bit := rfl
@[simp] theorem State.past_vok : s.past.vok = s.vok := rfl
@[simp] theorem State.past_cmd : s.past.cmd = s.cmd := rfl
@[simp] theorem State.past_draws : s.past.draws = s.draws := rfl
@[simp] theorem State.past_irq : s.past.irq = s.irq := rfl
@[simp] theorem State.past_entReady : s.past.entReady = s.entReady := rfl
@[simp] theorem State.past_entropy : s.past.entropy = s.entropy := rfl
@[simp] theorem State.past_rst : s.past.rst = s.rst := rfl
@[simp] theorem State.past_rdata : s.past.rdata = s.rdata := rfl
@[simp] theorem State.past_reads : s.past.reads = s.reads := rfl
@[simp] theorem State.past_env : s.past.env = s.env.tail := rfl
@[simp] theorem State.past_flags : s.past.flags = s.flags := rfl
@[simp] theorem State.past_ctrlWord : s.past.ctrlWord = s.ctrlWord := rfl

end Past

/-! ### The step of a host access (R50, R280) -/

section HostSteps

variable {s : State} {off : BitVec 12} {size : Nat}

theorem step_of_hostWrites {d : Word64} (h : s.hostWrites off size d) :
    step s = .next (s.past.hostWrite off size d) := by
  obtain ⟨hrst, rest, henv⟩ := h
  rw [step_of_env_cons henv, s.past_of_env_cons henv, runEvent, hrst]
  rfl

theorem step_of_hostReads (h : s.hostReads off size) : step s = .next (s.past.hostRead off size) := by
  obtain ⟨hrst, rest, henv⟩ := h
  rw [step_of_env_cons henv, s.past_of_env_cons henv, runEvent, hrst]
  rfl

end HostSteps

/-! ### BUSY and one bit of a word -/

theorem State.busy_of_phase_busy {s : State} (h : s.phase = .busy) : s.busy = true := by
  rw [State.busy, h]
  rfl

theorem State.busy_of_phase_idle {s : State} (h : s.phase = .idle) : s.busy = false := by
  rw [State.busy, h]
  rfl

/-- The one-bit slice v[k:k] (R14) is bit k. -/
theorem slice_self_toNat {n : Nat} (d : BitVec n) (k : Nat) : slice d.toNat k k = (d.getLsbD k).toNat := by
  rw [slice, Nat.sub_self, zero_add, pow_one, BitVec.getLsbD, Nat.toNat_testBit]

/-! ### Accesses to CMD (R33) -/

section Cmd

variable (s : State)

theorem target_cmd : target 0x018 8 = .cmd := rfl

@[simp] theorem State.accept_flags (w : Word64) : (s.accept w).flags = s.flags := rfl

theorem State.hostRead_cmd : s.hostRead 0x018 8 = { s with rdata := s.cmd } := by
  rw [State.hostRead, target_cmd]
  rfl

theorem State.hostWrite_cmd_of_idle (w : Word64) (h : s.phase = .idle) : s.hostWrite 0x018 8 w = s.accept w := by
  rw [State.hostWrite, target_cmd, State.busy_of_phase_idle h]
  rfl

theorem State.hostWrite_cmd_of_busy (w : Word64) (h : s.phase = .busy) :
    s.hostWrite 0x018 8 w = { s with ovr := true } := by
  rw [State.hostWrite, target_cmd, State.busy_of_phase_busy h]
  rfl

end Cmd

/-! ### Accesses to CTRL (R30, R38, R282) -/

section Ctrl

variable (s : State)

theorem target_ctrl : target 0x008 8 = .ctrl := rfl

theorem State.ctrlWord_eq : s.ctrlWord = if s.ien then 1 else 0 := by
  rw [State.ctrlWord]
  cases s.ien <;> rfl

theorem State.hostRead_ctrl : s.hostRead 0x008 8 = { s with rdata := s.ctrlWord } := by
  rw [State.hostRead, target_ctrl]
  rfl

/-- A write to CTRL with SRST = 0 writes IEN and recomputes irq. -/
theorem State.hostWrite_ctrl_of_not_srst {d : Word64} (h : d.getLsbD 1 = false) :
    s.hostWrite 0x008 8 d = { s with ien := d.getLsbD 0, irq := s.done && d.getLsbD 0 } := by
  have hien : (slice d.toNat 0 0 == 1) = d.getLsbD 0 := by
    rw [slice_self_toNat]
    cases d.getLsbD 0 <;> rfl
  rw [State.hostWrite, target_ctrl, State.writeCtrl, slice_self_toNat, h, hien]
  rfl

/-- A write to CTRL with SRST = 1 is a soft reset. -/
theorem State.hostWrite_ctrl_of_srst {d : Word64} (h : d.getLsbD 1 = true) :
    s.hostWrite 0x008 8 d = s.resetCore := by
  rw [State.hostWrite, target_ctrl, State.writeCtrl, slice_self_toNat, h]
  rfl

end Ctrl

/-! ### The claims about CMD and CTRL -/

/-- Settles O18. What acceptance writes and leaves is read off `State.accept`, field by field. -/
theorem cmdWriteIssuesACommand : Obligations.CmdWriteIssuesACommand := by
  refine ⟨fun s w hw hidle => ?accepted, fun s w hw hbusy => ?dropped, fun s hr => ?read, rfl, by decide⟩
  case accepted =>
    have hstep : step s = .next (s.past.accept w) := by
      rw [step_of_hostWrites hw, s.past.hostWrite_cmd_of_idle w hidle]
    exact ⟨s.past.accept w, hstep, by simp⟩
  case dropped => rw [step_of_hostWrites hw, s.past.hostWrite_cmd_of_busy w hbusy]
  case read =>
    rw [step_of_hostReads hr, State.hostRead_cmd]
    rfl

/-- Settles O20. SRST = 0 and SRST = 1 are the two branches of a CTRL write; neither looks at the phase. -/
theorem ctrlRegister : Obligations.CtrlRegister := by
  refine ⟨fun s hr => ?read, fun s d hw hsrst => ?writeIen, fun s d hw hsrst => ?softReset, rfl⟩
  case read => rw [step_of_hostReads hr, State.hostRead_ctrl, State.past_ctrlWord, State.ctrlWord_eq]
  case writeIen =>
    rw [step_of_hostWrites hw, State.hostWrite_ctrl_of_not_srst _ hsrst]
    rfl
  case softReset =>
    rw [step_of_hostWrites hw, State.hostWrite_ctrl_of_srst _ hsrst]
    rfl

end Sys2Proof.Machine

/-! # Accesses to V and BUF, and accesses that are not performed -/

namespace Sys2Proof.Machine

/-! ### What an offset reaches (R51, R52, R53, R56) -/

theorem offset_toNat {a : Nat} (h : a < 4096) : (BitVec.ofNat 12 a).toNat = a := by
  rw [BitVec.toNat_ofNat, Nat.mod_eq_of_lt h]

theorem target_vWord {i j : Nat} (hi : i < 16) (hj : j < 6) :
    target (BitVec.ofNat 12 (0x100 + 48 * i + 8 * j)) 8 = .vWord i j := by
  have haligned : (0x100 + 48 * i + 8 * j) % 8 = 0 := by omega
  have hreg : (0x100 + 48 * i + 8 * j - 0x100) / 48 = i := by omega
  have hword : (0x100 + 48 * i + 8 * j - 0x100) % 48 / 8 = j := by omega
  rw [target, offset_toNat (by omega), if_pos ⟨rfl, haligned⟩]
  iterate 5 rw [if_neg (by omega)]
  rw [if_pos (by omega), hreg, hword]

theorem target_bufEight {q : Nat} (hq : q < 64) : target (BitVec.ofNat 12 (0x400 + 8 * q)) 8 = .bufEight (8 * q) := by
  have haligned : (0x400 + 8 * q) % 8 = 0 := by omega
  rw [target, offset_toNat (by omega), if_pos ⟨rfl, haligned⟩]
  iterate 6 rw [if_neg (by omega)]
  rw [if_pos (by omega), Nat.add_sub_cancel_left]

theorem target_bufOne {k : Nat} (hk : k < 512) : target (BitVec.ofNat 12 (0x400 + k)) 1 = .bufOne k := by
  rw [target, offset_toNat (by omega), if_neg (by omega), if_pos (by omega), Nat.add_sub_cancel_left]

/-- What is neither a control register, nor an aligned 8 bytes of V or BUF, nor a byte of BUF is nothing (R52, R55). -/
theorem target_nothing {off : BitVec 12} {size : Nat}
    (hregs : ¬(size = 8 ∧ off.toNat % 8 = 0 ∧ off.toNat < 0x028))
    (hwords : ¬(size = 8 ∧ off.toNat % 8 = 0 ∧ 0x100 ≤ off.toNat ∧ off.toNat < 0x600))
    (hbytes : ¬(size = 1 ∧ 0x400 ≤ off.toNat ∧ off.toNat < 0x600)) : target off size = .nothing := by
  rw [target]
  by_cases haligned : size = 8 ∧ off.toNat % 8 = 0
  · rw [if_pos haligned]
    iterate 7 rw [if_neg (by omega)]
  · rw [if_neg haligned, if_neg (by omega)]

/-! ### A host access by what it reaches -/

section Accesses

variable (s : State) {off : BitVec 12} {size i j k : Nat}

@[simp] theorem State.past_readV : s.past.readV i = s.readV i := rfl

theorem State.hostRead_vWord (ht : target off size = .vWord i j) (hidle : s.phase = .idle) :
    s.hostRead off size = { s with rdata := vliWord (s.readV i) j } := by
  rw [State.hostRead, ht, State.busy_of_phase_idle hidle]
  rfl

theorem State.hostWrite_vWord (d : Word64) (ht : target off size = .vWord i j) (hidle : s.phase = .idle) :
    s.hostWrite off size d = s.writeV i (vliSetWord (s.readV i) j d) := by
  rw [State.hostWrite, ht, State.busy_of_phase_idle hidle]
  rfl

theorem State.hostRead_bufEight (ht : target off size = .bufEight k) (hidle : s.phase = .idle) :
    s.hostRead off size = { s with rdata := s.bufWord k } := by
  rw [State.hostRead, ht, State.busy_of_phase_idle hidle]
  rfl

theorem State.hostWrite_bufEight (d : Word64) (ht : target off size = .bufEight k) (hidle : s.phase = .idle) :
    s.hostWrite off size d = s.writeBuf k (laneBytes d) := by
  rw [State.hostWrite, ht, State.busy_of_phase_idle hidle]
  rfl

theorem State.hostRead_bufOne (ht : target off size = .bufOne k) (hidle : s.phase = .idle) :
    s.hostRead off size = { s with rdata := BitVec.ofNat 64 (s.buf.read k).toNat } := by
  rw [State.hostRead, ht, State.busy_of_phase_idle hidle]
  rfl

theorem State.hostWrite_bufOne (d : Word64) (ht : target off size = .bufOne k) (hidle : s.phase = .idle) :
    s.hostWrite off size d = s.writeBuf k [BitVec.ofNat 8 d.toNat] := by
  rw [State.hostWrite, ht, State.busy_of_phase_idle hidle]
  rfl

theorem State.hostRead_nothing (ht : target off size = .nothing) : s.hostRead off size = { s with rdata := 0 } := by
  rw [State.hostRead, ht]
  rfl

theorem State.hostWrite_nothing (d : Word64) (ht : target off size = .nothing) : s.hostWrite off size d = s := by
  rw [State.hostWrite, ht]

end Accesses

/-! ### Replacing one digit of a number

A word of a word-vector is a digit in base `W` at the place of weight `B`. -/

section Digits

/-- `x` with its base-`W` digit of weight `B` replaced by `d`. -/
def replaceDigit (B W x d : Nat) : Nat := x % B + d * B + x / (B * W) * (B * W)

variable {B W x d : Nat}

theorem replaceDigit_eq : replaceDigit B W x d = x % B + B * (d + W * (x / (B * W))) := by
  rw [replaceDigit]
  ring

theorem replaceDigit_mod : replaceDigit B W x d % B = x % B := by
  rw [replaceDigit_eq, Nat.add_mul_mod_self_left, Nat.mod_mod]

theorem replaceDigit_div (hB : 0 < B) : replaceDigit B W x d / B = d + W * (x / (B * W)) := by
  rw [replaceDigit_eq, Nat.add_mul_div_left _ _ hB, Nat.div_eq_of_lt (Nat.mod_lt x hB), zero_add]

/-- The digit itself is the new one. -/
theorem replaceDigit_div_mod (hB : 0 < B) (hd : d < W) : replaceDigit B W x d / B % W = d := by
  rw [replaceDigit_div hB, Nat.add_mul_mod_self_left, Nat.mod_eq_of_lt hd]

/-- What lies above the digit stays. -/
theorem replaceDigit_div_mul (hB : 0 < B) (hd : d < W) : replaceDigit B W x d / (B * W) = x / (B * W) := by
  rw [← Nat.div_div_eq_div_mul, replaceDigit_div hB, Nat.add_mul_div_left _ _ (Nat.zero_lt_of_lt hd),
    Nat.div_eq_of_lt hd, zero_add]

/-- A lower digit stays: it is read off what is left modulo `B`. -/
theorem replaceDigit_lower {C : Nat} (hC : C * W ∣ B) : replaceDigit B W x d / C % W = x / C % W := by
  have hmod : replaceDigit B W x d % (C * W) = x % (C * W) := by
    rw [← Nat.mod_mod_of_dvd _ hC, replaceDigit_mod, Nat.mod_mod_of_dvd _ hC]
  rw [← Nat.mod_mul_right_div_self, hmod, Nat.mod_mul_right_div_self]

/-- A quotient by a multiple of the weight above the digit stays. -/
theorem replaceDigit_higher {C : Nat} (hB : 0 < B) (hd : d < W) (hC : B * W ∣ C) :
    replaceDigit B W x d / C = x / C := by
  obtain ⟨e, rfl⟩ := hC
  rw [← Nat.div_div_eq_div_mul, replaceDigit_div_mul hB hd, Nat.div_div_eq_div_mul]

theorem replaceDigit_lt {C : Nat} (hB : 0 < B) (hd : d < W) (hC : B * W ∣ C) (hx : x < C) :
    replaceDigit B W x d < C := by
  have hquot : replaceDigit B W x d / C = 0 := by rw [replaceDigit_higher hB hd hC, Nat.div_eq_of_lt hx]
  exact (Nat.div_eq_zero_iff_lt (Nat.zero_lt_of_lt hx)).1 hquot

end Digits

/-! ### The words of a word-vector (R20, R53) -/

section Words

variable (x : Vli) (d : Word64)

/-- The weight past word `j` divides the weight of every word above it. -/
theorem wordWeight_dvd {j k : Nat} (h : j < k) : 2 ^ (64 * j) * 2 ^ 64 ∣ 2 ^ (64 * k) := by
  rw [← pow_add]
  exact pow_dvd_pow 2 (by omega)

theorem vliWord_toNat (j : Nat) : (vliWord x j).toNat = x.toNat / 2 ^ (64 * j) % 2 ^ 64 := by
  rw [vliWord, slice, Nat.add_sub_cancel_left, BitVec.toNat_ofNat, Nat.mod_mod]

/-- Replacing one of the six words loses nothing above bit 383. -/
theorem vliSetWord_toNat {j : Nat} (hj : j < 6) :
    (vliSetWord x j d).toNat = replaceDigit (2 ^ (64 * j)) (2 ^ 64) x.toNat d.toNat := by
  have hx : x.toNat < 2 ^ (64 * 6) := by omega
  have hlt := replaceDigit_lt (Nat.two_pow_pos _) d.isLt (wordWeight_dvd hj) hx
  rw [vliSetWord, Nat.mul_add_one, pow_add, ← replaceDigit, BitVec.toNat_ofNat]
  omega

/-- Word `j'` after word `j` is replaced: the new word, a word below `j`, or a word above it. -/
theorem vliSetWord_word {j : Nat} (hj : j < 6) (j' : Nat) :
    (vliSetWord x j d).toNat / 2 ^ (64 * j') % 2 ^ 64 =
      if j' = j then d.toNat else x.toNat / 2 ^ (64 * j') % 2 ^ 64 := by
  rw [vliSetWord_toNat x d hj]
  rcases Nat.lt_trichotomy j' j with hlt | rfl | hgt
  · rw [if_neg hlt.ne]
    exact replaceDigit_lower (wordWeight_dvd hlt)
  · rw [if_pos rfl, replaceDigit_div_mod (Nat.two_pow_pos _) d.isLt]
  · rw [if_neg hgt.ne', replaceDigit_higher (Nat.two_pow_pos _) d.isLt (wordWeight_dvd hgt)]

end Words

/-! ### The byte lanes of a datum (R57) -/

section Lanes

/-- In a string read with its first byte least significant, byte `t` has weight 2^(8t). -/
theorem be_reverse_lane (str : List Byte) (t : Nat) (ht : t < str.length) :
    be str.reverse / 2 ^ (8 * t) % 2 ^ 8 = str[t].toNat := by
  induction str generalizing t with
  | nil => exact absurd ht (Nat.not_lt_zero t)
  | cons b rest ih =>
    have hb : b.toNat < 256 := b.isLt
    rw [List.reverse_cons, be_append_singleton]
    cases t with
    | zero =>
      rw [List.getElem_cons_zero]
      omega
    | succ t =>
      have hrest : (be rest.reverse * 256 + b.toNat) / 2 ^ 8 = be rest.reverse := by omega
      have hweight : 2 ^ (8 * (t + 1)) = 2 ^ 8 * 2 ^ (8 * t) := by ring
      rw [List.getElem_cons_succ, hweight, ← Nat.div_div_eq_div_mul, hrest, ih t (Nat.lt_of_succ_lt_succ ht)]

theorem State.bufWord_toNat (s : State) (k : Nat) : (s.bufWord k).toNat = be (s.buf.readString k 8).reverse := by
  have hlt : be (s.buf.readString k 8).reverse < 2 ^ 64 := by
    simpa using be_lt (s.buf.readString k 8).reverse
  rw [State.bufWord, BitVec.toNat_ofNat, Nat.mod_eq_of_lt hlt]

theorem State.bufWord_lane (s : State) (k : Nat) {t : Nat} (ht : t < 8) :
    (s.bufWord k).toNat / 2 ^ (8 * t) % 2 ^ 8 = (s.buf.read (k + t)).toNat := by
  rw [s.bufWord_toNat, be_reverse_lane _ t (by simpa using ht)]
  simp [Memory.readString]

@[simp] theorem laneBytes_length (d : Word64) : (laneBytes d).length = 8 := by simp [laneBytes]

theorem be_reverse_laneBytes (d : Word64) : be (laneBytes d).reverse = d.toNat := by
  rw [laneBytes, List.reverse_reverse, be_beBytes]
  exact Nat.mod_eq_of_lt d.isLt

theorem laneBytes_getElem (d : Word64) (t : Nat) (ht : t < (laneBytes d).length) :
    (laneBytes d)[t].toNat = d.toNat / 2 ^ (8 * t) % 2 ^ 8 := by
  rw [← be_reverse_lane _ t ht, be_reverse_laneBytes]

end Lanes

/-! ### A string written into BUF -/

theorem State.keepsBufOutside_of_buf_eq {s t : State} {off : Nat} {str : List Byte} (hwf : s.buf.wf = true)
    (ht : t.buf = s.buf.writeString off str) : s.KeepsBufOutside t off str.length := by
  intro a ha
  rw [ht, Memory.read_writeString_outside hwf off a str ha]

/-! ### The claims about V, BUF and accesses that are not performed -/

/-- Settles O22. The frame is `writeV`'s; the words of the register written are `vliSetWord_word`. -/
theorem operandRegisterWords : Obligations.OperandRegisterWords := by
  intro s i j hi hj hidle
  have htarget := target_vWord hi hj
  refine ⟨fun hr => ?read, fun d hw => ?write⟩
  case read =>
    refine ⟨vliWord (s.readV i) j, ?_, vliWord_toNat _ j⟩
    rw [step_of_hostReads hr, s.past.hostRead_vWord htarget hidle, State.past_readV]
  case write =>
    refine ⟨s.past.writeV i (vliSetWord (s.readV i) j d), ?_, rfl, fun i' _ hi' => ?_, fun j' _ => ?_⟩
    · rw [step_of_hostWrites hw, s.past.hostWrite_vWord d htarget hidle, State.past_readV]
    · have hne : i ≠ i' := fun h => hi' (h ▸ List.mem_singleton_self i)
      exact s.past.readV_writeV_other i i' _ hne
    · rw [State.readV_writeV_same _ i _ hi, vliSetWord_word _ d hj]

/-- Settles O23. The byte at 8q + t is byte t of the lane order, whose value lies on data bits 8t+7:8t. -/
theorem bufferLanes : Obligations.BufferLanes := by
  refine ⟨fun s q hq hidle => ⟨fun hr => ?readEight, fun d hwf hw => ?writeEight⟩,
    fun s k hk hidle => ⟨fun hr => ?readOne, fun d hwf hw => ?writeOne⟩, fun k _ => rfl⟩
  case readEight =>
    refine ⟨s.bufWord (8 * q), ?_, fun t ht => s.bufWord_lane (8 * q) ht⟩
    rw [step_of_hostReads hr, s.past.hostRead_bufEight (target_bufEight hq) hidle]
    rfl
  case writeEight =>
    refine ⟨s.past.writeBuf (8 * q) (laneBytes d), ?_, rfl, ?_, fun t ht => ?_⟩
    · rw [step_of_hostWrites hw, s.past.hostWrite_bufEight d (target_bufEight hq) hidle]
    · rw [← laneBytes_length d]
      exact State.keepsBufOutside_of_buf_eq hwf rfl
    · have hlane : t < (laneBytes d).length := by simpa using ht
      have hfits : 8 * q + (laneBytes d).length ≤ bufSize := by
        rw [laneBytes_length, bufSize]
        omega
      rw [State.writeBuf_buf, State.past_buf, Memory.read_writeString_inside hwf _ t _ hlane hfits,
        laneBytes_getElem d t hlane]
  case readOne =>
    refine ⟨BitVec.ofNat 64 (s.buf.read k).toNat, ?_, ?_⟩
    · rw [step_of_hostReads hr, s.past.hostRead_bufOne (target_bufOne hk) hidle]
      rfl
    · have hbyte := (s.buf.read k).isLt
      rw [BitVec.toNat_ofNat]
      omega
  case writeOne =>
    refine ⟨s.past.writeBuf k [BitVec.ofNat 8 d.toNat], ?_, rfl, ?_, ?_⟩
    · rw [step_of_hostWrites hw, s.past.hostWrite_bufOne d (target_bufOne hk) hidle]
    · exact State.keepsBufOutside_of_buf_eq (str := [_]) hwf rfl
    · rw [State.writeBuf_buf, State.past_buf, Memory.writeString, Memory.writeString,
        Memory.read_write_same hwf k _ hk, BitVec.toNat_ofNat]

/-- Settles O24. The three premises leave the address map nothing to reach. -/
theorem unperformedAccesses : Obligations.UnperformedAccesses := by
  intro s off size d hregs hwords hbytes
  have htarget := target_nothing hregs hwords hbytes
  refine ⟨fun hw => ?write, fun hr => ?read⟩
  case write => rw [step_of_hostWrites hw, s.past.hostWrite_nothing d htarget]
  case read => rw [step_of_hostReads hr, s.past.hostRead_nothing htarget]

end Sys2Proof.Machine

/-! # Opcodes: the words the spec prints, and the opcode values outside the map -/

namespace Sys2Proof

/-! ### What decode makes of the opcode field (R87, R89, R90) -/

/-- The checks after the opcode fail with ILLEGAL_OPERAND alone (R89). -/
theorem checked_ne_illegalOpcode (u : Uses) (w : Word64) (i : Instr) : checked u w i ≠ .error .illegalOpcode := by
  rw [checked]
  split
  · nofun
  · nofun

/-- What decode can answer: inside the opcode map the operand checks on some command, outside it ILLEGAL_OPCODE. -/
theorem decode_cases (w : Word64) :
    (fieldOp w ∈ Machine.opcodeMap ∧ ∃ u i, decode w = checked u w i) ∨
      (fieldOp w ∉ Machine.opcodeMap ∧ decode w = .error .illegalOpcode) := by
  unfold decode
  split
  -- the last row: every opcode value that no row names
  case h_36 => exact .inr ⟨by simp_all [Machine.opcodeMap], rfl⟩
  -- 0x39 (SMUL) is the one row that reads ZR before its checks (R85)
  case h_27 hop =>
    refine .inl ⟨by simp [hop, Machine.opcodeMap], ?_⟩
    split
    · exact ⟨_, _, rfl⟩
    · exact ⟨_, _, rfl⟩
  all_goals
    rename_i hop
    exact .inl ⟨by simp [hop, Machine.opcodeMap], _, _, rfl⟩

theorem decode_eq_illegalOpcode_iff (w : Word64) :
    decode w = .error .illegalOpcode ↔ fieldOp w ∉ Machine.opcodeMap := by
  obtain ⟨hop, u, i, hd⟩ | ⟨hop, hd⟩ := decode_cases w
  · simp [hd, hop, checked_ne_illegalOpcode]
  · simp [hd, hop]

theorem fieldOp_eq (w : Word64) : fieldOp w = w.toNat % 256 := by simp [fieldOp, slice]

/-- The illegal opcode values as R90 lists them: each range by its first and last value. -/
def opcodeGaps : List (Nat × Nat) :=
  [(0x03, 0x07), (0x13, 0x1F), (0x27, 0x2F), (0x34, 0x37), (0x3A, 0x3F), (0x44, 0x4F), (0x54, 0xFF)]

/-- The gaps of R90 are the complement of the map of R87 among the 256 opcode values. -/
theorem not_mem_opcodeMap_iff_gap {op : Nat} (hop : op < 256) :
    op ∉ Machine.opcodeMap ↔ ∃ gap ∈ opcodeGaps, gap.1 ≤ op ∧ op ≤ gap.2 := by
  simp only [Machine.opcodeMap, opcodeGaps, List.mem_cons, List.not_mem_nil, or_false, not_or, exists_eq_or_imp,
    exists_eq_left]
  omega

end Sys2Proof

namespace Sys2Proof.Machine

/-! ### The core's turn on the schedule, and NOP -/

/-- Where the core is next, a step is its turn, on the state whose schedule has moved on (log entries 1 and 2). -/
theorem step_of_coreIsNext {s : State} (h : s.coreIsNext) : step s = coreTurn s.past := by
  obtain henv | ⟨rest, henv⟩ := h
  · rw [step_of_env_nil henv, State.past, henv, List.tail_nil, ← henv]
  · rw [step_of_env_cons henv, s.past_of_env_cons henv, runEvent]

/-- A command word that fails decode ends with its error and commits nothing (R89, R252). -/
theorem step_failsTo_of_decode_error {s : State} {e : DecodeError} (hrst : s.rst = false) (hbusy : s.phase = .busy)
    (hcore : s.coreIsNext) (hd : decode s.cmd = .error e) :
    ∃ t, step s = .next t ∧ s.past.FailsTo t (decodeErrCode e) 0 := by
  refine ⟨s.past.complete (decodeErrCode e) 0, ?_, s.past.failsTo_complete _ 0 (by decide)⟩
  rw [step_of_coreIsNext hcore, coreTurn_error (s := s.past) hrst hbusy hd]

theorem exec_nop (s : State) : exec .nop s = .next (s.complete .ok 0) := rfl

/-- A completion with no error and no draws from the state itself changes no register and no byte of BUF. -/
theorem State.succeeds_complete (s : State) : s.Succeeds (s.complete .ok 0) [] where
  completes := State.completesTo_complete .ok 0 (by decide) rfl rfl rfl rfl rfl rfl rfl
  registers := fun j _ _ => s.readV_complete .ok 0 j
  buffer := fun _ => rfl

/-! ### The claims -/

/-- Settles O1. Nine closed words, each decoded to the command printed beside it. -/
theorem specWordsDecode : Obligations.SpecWordsDecode := by
  refine ⟨?modmul, ?keygen, ?pdecomp, ?pcomp, ?loadb, ?storeb, ?ldc, ?smul, ?vcmp⟩
  all_goals decide

/-- Settles O4. Decode answers ILLEGAL_OPCODE exactly outside the opcode map, whose complement R90's ranges are. -/
theorem unknownOpcodesAreIllegal : Obligations.UnknownOpcodesAreIllegal := by
  refine ⟨fun w => ?ranges, fun s hrst hbusy hcore hd => step_failsTo_of_decode_error hrst hbusy hcore hd,
    fun s => ⟨s.complete .ok 0, exec_nop s, s.succeeds_complete, rfl⟩⟩
  case ranges =>
    have hop : w.toNat % 256 < 256 := Nat.mod_lt _ (by decide)
    rw [decode_eq_illegalOpcode_iff, fieldOp_eq, not_mem_opcodeMap_iff_gap hop, Prod.exists]
    rfl

end Sys2Proof.Machine

/-! # Decode after encode, and the word-vector commands -/

namespace Sys2Proof

/-! ### The word of a command decodes to it (R87 to R89) -/

section

variable (op : Nat) (rd ra rb rc : Reg) (m zr : Nat) (imm : Imm) (hop : op < 256) (hm : m < 2) (hzr : zr < 2)

include hop hm hzr

/-- After the opcode, an assembled word can fail only in its operand checks, where the fields its row does not use are
zero (R88, R89). -/
theorem checked_assemble (u : Uses) (i : Instr)
    (hunused : ((u.rd || rd == 0) && (u.ra || ra == 0) && (u.rb || rb == 0) && (u.rc || rc == 0) && (u.m || m == 0) &&
      (u.zr || zr == 0) && (u.imm || imm == 0)) = true) :
    checked u (assemble op rd ra rb rc m zr imm) i = if i.wellFormed then .ok i else .error .illegalOperand := by
  rw [checked, reservedZero_assemble op rd ra rb rc m zr imm hop hm hzr, unusedZero,
    fieldRd_assemble op rd ra rb rc m zr imm hop hm hzr, fieldRa_assemble op rd ra rb rc m zr imm hop hm hzr,
    fieldRb_assemble op rd ra rb rc m zr imm hop hm hzr, fieldRc_assemble op rd ra rb rc m zr imm hop hm hzr,
    fieldM_assemble op rd ra rb rc m zr imm hop hm hzr, fieldZr_assemble op rd ra rb rc m zr imm hop hm hzr,
    fieldImm_assemble op rd ra rb rc m zr imm hop hm hzr, hunused, Bool.true_and, Bool.true_and]

end

/-- The word of any command term decodes to that command, or, where the operand checks of R81 to R83 fail, to
ILLEGAL_OPERAND. -/
theorem decode_encode (i : Instr) :
    decode (encode i) = if i.wellFormed then .ok i else .error .illegalOperand := by
  cases i with
  | smul rd ra rb z =>
    -- its two rows, without and with RC, are told apart by ZR (R85)
    cases z with
    | none =>
      simp [encode, decode, fieldOp_assemble, fieldRd_assemble, fieldRa_assemble, fieldRb_assemble, fieldZr_assemble,
        checked_assemble]
    | some rc =>
      simp [encode, decode, fieldOp_assemble, fieldRd_assemble, fieldRa_assemble, fieldRb_assemble, fieldRc_assemble,
        fieldZr_assemble, checked_assemble]
  | _ =>
    -- the opcode picks the row, the row's fields read back the operands, and `checked_assemble` is the rest
    simp [encode, decode, fieldOp_assemble, fieldRd_assemble, fieldRa_assemble, fieldRb_assemble, fieldRc_assemble,
      fieldM_assemble, fieldImm_assemble, checked_assemble, modulusBit_lt, modulusOf_modulusBit, -Order.lt_two_iff]

theorem decode_encode_of_wellFormed {i : Instr} (h : i.wellFormed = true) : decode (encode i) = .ok i := by
  rw [decode_encode, if_pos h]

theorem decode_encode_of_iff {i : Instr} {p : Prop} [Decidable p] (h : i.wellFormed = true ↔ p) :
    decode (encode i) = if p then .ok i else .error .illegalOperand := by
  rw [decode_encode]
  exact if_congr h rfl rfl

theorem immAtMost_iff {hi : Nat} {imm : Imm} : immAtMost hi imm = true ↔ imm.toNat ≤ hi := decide_eq_true_iff

/-- The last register a pair can start at is V14 (R81). -/
theorem groupFits_two_iff {r : Reg} : groupFits 2 r = true ↔ r.toNat ≤ 14 := by
  rw [groupFits, decide_eq_true_iff]
  omega

end Sys2Proof

namespace Sys2Proof.Machine

set_option exponentiation.threshold 1000

/-! ### The values commands compute (40_vli.md) -/

section Values

theorem zeroFlag_eq (v : Nat) : zeroFlag v = decide (v = 0) := beq_eq_decide v 0

/-- Bit `i` of a register's integer is the register's bit `i` (R14, R15). -/
theorem bitFlag_toNat {n : Nat} (x : BitVec n) (i : Nat) : bitFlag x.toNat i = x.getLsbD i := by
  rw [bitFlag, BitVec.getLsbD, Nat.testBit_eq_decide_div_mod_eq, beq_eq_decide]

theorem cmpFlag_of_eq {a b : Nat} (h : a = b) : cmpFlag a b = 0b00 := by
  rw [cmpFlag, if_neg h.not_gt, if_pos h]

theorem cmpFlag_of_gt {a b : Nat} (h : b < a) : cmpFlag a b = 0b01 := if_pos h

theorem cmpFlag_of_lt {a b : Nat} (h : a < b) : cmpFlag a b = 0b11 := by
  rw [cmpFlag, if_neg h.not_gt, if_neg h.ne]

/-- The model's bit length is Mathlib's. -/
theorem bitLength_eq_size (v : Nat) : bitLength v = v.size := by
  rw [bitLength]
  split
  next h => rw [h, Nat.size_zero]
  next h => exact le_antisymm (Nat.lt_size.2 (Nat.log2_self_le h)) (Nat.size_le.2 Nat.lt_log2_self)

theorem lt_two_pow_bitLength (v : Nat) : v < 2 ^ bitLength v := by
  rw [bitLength_eq_size]
  exact v.lt_size_self

/-- The highest set bit has the index one below the bit length (R104). -/
theorem two_pow_le_of_bitLength_ne_zero {v : Nat} (h : bitLength v ≠ 0) : 2 ^ (bitLength v - 1) ≤ v := by
  rw [bitLength_eq_size] at h ⊢
  exact Nat.lt_size.1 (Nat.sub_one_lt h)

/-- The bit length of a register fits a register. -/
theorem bitLength_lt {v : Nat} (h : v < 2 ^ 384) : bitLength v < 2 ^ 384 := by
  have hle : bitLength v ≤ 384 := by
    rw [bitLength_eq_size]
    exact Nat.size_le.2 h
  exact hle.trans_lt Nat.lt_two_pow_self

/-- The carry of two registers is bit 384 of their sum (R108). -/
theorem carryFlag_eq {a b : Nat} (ha : a < 2 ^ 384) (hb : b < 2 ^ 384) :
    carryFlag a b = decide ((a + b) / 2 ^ 384 = 1) := by
  rw [carryFlag, decide_eq_decide]
  omega

/-- The difference taken modulo a power above the subtrahend is the integer difference modulo that power (R109). -/
theorem cast_sub_mod {a b m : Nat} (hb : b < m) : (((a + m - b) % m : Nat) : ℤ) = ((a : ℤ) - b) % m := by
  have hle : b ≤ a + m := hb.le.trans (Nat.le_add_left m a)
  rw [Int.natCast_mod, Int.natCast_sub hle, Int.natCast_add, add_sub_right_comm, Int.add_emod_right]

/-- A value below the square of the base is its two digits (R110). -/
theorem two_digits {x m : Nat} (hx : x < m * m) : x / m % m * m + x % m = x := by
  rw [Nat.mod_eq_of_lt (Nat.div_lt_of_lt_mul hx), Nat.div_add_mod']

end Values

/-! ### Sources and destinations read as integers -/

section Operands

variable (s : State) (r : Reg)

theorem State.src_lt : s.src r < 2 ^ 384 := (s.readV r.toNat).isLt

@[simp] theorem State.src_complete (code : ErrCode) (count : Nat) : (s.complete code count).src r = s.src r := rfl

@[simp] theorem State.src_setC (b : Bool) : (s.setC b).src r = s.src r := rfl

@[simp] theorem State.src_dst_same (x : Nat) : (s.dst r x).src r = x % 2 ^ 384 := by
  rw [State.src, s.readV_dst r x _ (reg_lt r), if_pos rfl, BitVec.toNat_ofNat]

theorem State.src_dst_of_lt {x : Nat} (h : x < 2 ^ 384) : (s.dst r x).src r = x := by
  rw [s.src_dst_same, Nat.mod_eq_of_lt h]

/-- A pair whose two registers exist holds what is written to it, low half first (R110). -/
theorem State.srcWide_dstWide {x : Nat} (hr : r.toNat ≤ 14) (hx : x < 2 ^ 384 * 2 ^ 384) :
    (s.dstWide r x).srcWide r = x := by
  have hhigh : (s.dstWide r x).srcAt r 1 = x / 2 ^ 384 % 2 ^ 384 := by
    rw [State.srcAt, s.readV_dstWide r x _ (by omega), if_pos rfl, BitVec.toNat_ofNat]
  have hlow : (s.dstWide r x).srcAt r 0 = x % 2 ^ 384 := by
    rw [State.srcAt, s.readV_dstWide r x _ (by omega), if_neg (by omega), if_pos (Nat.add_zero _).symm,
      BitVec.toNat_ofNat]
  rw [State.srcWide, hhigh, hlow, two_digits hx]

end Operands

/-! ### The flags after each update (R24 to R28) -/

section Flags

variable (s : State)

@[simp] theorem State.flags_complete (code : ErrCode) (count : Nat) : (s.complete code count).flags = s.flags := rfl
@[simp] theorem State.flags_dst (r : Reg) (x : Nat) : (s.dst r x).flags = s.flags := rfl
@[simp] theorem State.flags_dstWide (r : Reg) (x : Nat) : (s.dstWide r x).flags = s.flags := rfl
@[simp] theorem State.flags_setZ (b : Bool) : (s.setZ b).flags = (b, s.c, s.cmp, s.bit, s.vok) := rfl
@[simp] theorem State.flags_setBit (b : Bool) : (s.setBit b).flags = (s.z, s.c, s.cmp, b, s.vok) := rfl
theorem State.flags_dst_setC (r : Reg) (x : Nat) (b : Bool) :
    ((s.dst r x).setC b).flags = (s.z, b, s.cmp, s.bit, s.vok) := rfl

end Flags

/-! ### The frame of a command that succeeds (R35, R36) -/

section Frames

variable (s : State)

/-- Completing without error or draws, after an update that left BUF alone and wrote only the listed registers. -/
theorem State.succeeds_of_precedes {s s' : State} {written : List Nat} (h : s.Precedes s') (hv : s.KeepsV s' written)
    (hbuf : s'.buf = s.buf) : s.Succeeds (s'.complete .ok 0) written where
  completes := State.completesTo_complete .ok 0 (by decide) h.ien h.ovr h.cmd h.rst h.rdata h.reads h.env
  registers := hv
  buffer := fun a => by rw [State.complete_buf, hbuf]

theorem State.keepsV_dst (r : Reg) (x : Nat) : s.KeepsV (s.dst r x) [r.toNat] := by
  intro j hj hother
  have hne : j ≠ r.toNat := by simpa using hother
  rw [s.readV_dst r x j hj, if_neg hne.symm]

theorem State.keepsV_dstWide (r : Reg) (x : Nat) : s.KeepsV (s.dstWide r x) [r.toNat, r.toNat + 1] := by
  intro j hj hother
  obtain ⟨hlow, hhigh⟩ : j ≠ r.toNat ∧ j ≠ r.toNat + 1 := by simpa using hother
  rw [s.readV_dstWide r x j hj, if_neg hhigh.symm, if_neg hlow.symm]

theorem State.succeeds_dst (r : Reg) (x : Nat) : s.Succeeds ((s.dst r x).complete .ok 0) [r.toNat] :=
  State.succeeds_of_precedes (s.precedes_of_v _ _ _ _ _ _) (s.keepsV_dst r x) rfl

theorem State.succeeds_dst_setC (r : Reg) (x : Nat) (b : Bool) :
    s.Succeeds (((s.dst r x).setC b).complete .ok 0) [r.toNat] :=
  State.succeeds_of_precedes (s.precedes_of_v _ _ _ _ _ _) (s.keepsV_dst r x) rfl

theorem State.succeeds_dstWide (r : Reg) (x : Nat) :
    s.Succeeds ((s.dstWide r x).complete .ok 0) [r.toNat, r.toNat + 1] :=
  State.succeeds_of_precedes (s.precedes_of_v _ _ _ _ _ _) (s.keepsV_dstWide r x) rfl

/-- A command that writes flags alone. -/
theorem State.succeeds_flags (z c : Bool) (cmp : BitVec 2) (bit vok : Bool) :
    s.Succeeds (({ s with z := z, c := c, cmp := cmp, bit := bit, vok := vok } : State).complete .ok 0) [] :=
  State.succeeds_of_precedes (s.precedes_of_v _ _ _ _ _ _) (fun _ _ _ => rfl) rfl

end Frames

/-! ### What running each command answers -/

section Answers

variable (rd ra rb : Reg) (imm : Imm) (s : State)

theorem exec_viszero : exec (.viszero ra) s = .next ((s.setZ (zeroFlag (s.src ra))).complete .ok 0) := rfl

theorem exec_vtestbit (h : imm.toNat ≤ 383) :
    exec (.vtestbit ra imm) s = .next ((s.setBit (bitFlag (s.src ra) imm.toNat)).complete .ok 0) :=
  guarded_of_wellFormed (i := .vtestbit ra imm) (immAtMost_iff.2 h) s _

theorem exec_vcmp : exec (.vcmp ra rb) s = .next ((s.setCmp (cmpFlag (s.src ra) (s.src rb))).complete .ok 0) := rfl

theorem exec_vset : exec (.vset rd ra) s = .next ((s.dst rd (s.src ra)).complete .ok 0) := rfl

theorem exec_vnumbits : exec (.vnumbits rd ra) s = .next ((s.dst rd (bitLength (s.src ra))).complete .ok 0) := rfl

theorem exec_vlshift1 : exec (.vlshift1 rd ra) s =
    .next (((s.dst rd (2 * s.src ra)).setC (bitFlag (s.src ra) 383)).complete .ok 0) := rfl

theorem exec_vrshift1 : exec (.vrshift1 rd ra) s =
    .next (((s.dst rd (s.src ra / 2)).setC (bitFlag (s.src ra) 0)).complete .ok 0) := rfl

theorem exec_vadd : exec (.vadd rd ra rb) s =
    .next (((s.dst rd (s.src ra + s.src rb)).setC (carryFlag (s.src ra) (s.src rb))).complete .ok 0) := rfl

theorem exec_vsub : exec (.vsub rd ra rb) s =
    .next (((s.dst rd (s.src ra + 2 ^ 384 - s.src rb)).setC (borrowFlag (s.src ra) (s.src rb))).complete .ok 0) := rfl

theorem exec_vmul (h : rd.toNat ≤ 14) :
    exec (.vmul rd ra rb) s = .next ((s.dstWide rd (s.src ra * s.src rb)).complete .ok 0) :=
  guarded_of_wellFormed (i := .vmul rd ra rb) (groupFits_two_iff.2 h) s _

theorem exec_vsqr (h : rd.toNat ≤ 14) :
    exec (.vsqr rd ra) s = .next ((s.dstWide rd (s.src ra * s.src ra)).complete .ok 0) :=
  guarded_of_wellFormed (i := .vsqr rd ra) (groupFits_two_iff.2 h) s _

/-- The product of two registers, written to a pair, is read back whole (R110). -/
theorem State.srcWide_product (h : rd.toNat ≤ 14) :
    (s.dstWide rd (s.src ra * s.src rb)).srcWide rd = s.src ra * s.src rb :=
  s.srcWide_dstWide rd h (Nat.mul_lt_mul'' (s.src_lt ra) (s.src_lt rb))

end Answers

/-! ### The claims -/

/-- Settles O30. Each of the three commands writes one flag; CMP has one case for each order of the two sources. -/
theorem testsAndCompare : Obligations.TestsAndCompare := by
  refine ⟨fun ra s => ⟨decode_encode_of_wellFormed (i := .viszero ra) rfl, ?viszero⟩,
    fun ra imm s => ⟨decode_encode_of_iff (i := .vtestbit ra imm) immAtMost_iff, fun h => ?vtestbit⟩,
    fun ra rb s => ⟨decode_encode_of_wellFormed (i := .vcmp ra rb) rfl, ?vcmp⟩⟩
  case viszero =>
    refine ⟨_, exec_viszero ra s, s.succeeds_flags _ _ _ _ _, ?_⟩
    rw [State.flags_complete, State.flags_setZ, zeroFlag_eq]
  case vtestbit =>
    refine ⟨_, exec_vtestbit ra imm s h, s.succeeds_flags _ _ _ _ _, ?_⟩
    rw [State.flags_complete, State.flags_setBit, State.src, bitFlag_toNat]
  case vcmp =>
    exact ⟨_, exec_vcmp ra rb s, s.succeeds_flags _ _ _ _ _, rfl, cmpFlag_of_eq, cmpFlag_of_gt, cmpFlag_of_lt⟩

/-- Settles O31. The sources are below 2^384, so only VLSHIFT1's result can pass its destination, by the bit that
goes to C. -/
theorem copyLengthAndShifts : Obligations.CopyLengthAndShifts := by
  intro rd ra s
  have hra := s.src_lt ra
  refine ⟨⟨decode_encode_of_wellFormed (i := .vset rd ra) rfl, ?vset⟩,
    ⟨decode_encode_of_wellFormed (i := .vnumbits rd ra) rfl, ?vnumbits⟩,
    ⟨decode_encode_of_wellFormed (i := .vlshift1 rd ra) rfl, ?vlshift1⟩,
    ⟨decode_encode_of_wellFormed (i := .vrshift1 rd ra) rfl, ?vrshift1⟩⟩
  case vset => exact ⟨_, exec_vset rd ra s, s.succeeds_dst rd _, by simp, s.src_dst_of_lt rd hra⟩
  case vnumbits =>
    refine ⟨_, exec_vnumbits rd ra s, s.succeeds_dst rd _, by simp, ?_⟩
    rw [State.src_complete, s.src_dst_of_lt rd (bitLength_lt hra)]
    exact ⟨lt_two_pow_bitLength _, two_pow_le_of_bitLength_ne_zero⟩
  case vlshift1 =>
    refine ⟨_, exec_vlshift1 rd ra s, s.succeeds_dst_setC rd _ _, s.src_dst_same rd _, ?_⟩
    rw [State.flags_complete, State.flags_dst_setC, State.src, bitFlag_toNat]
  case vrshift1 =>
    have hhalf := (Nat.div_le_self (s.src ra) 2).trans_lt hra
    refine ⟨_, exec_vrshift1 rd ra s, s.succeeds_dst_setC rd _ _, s.src_dst_of_lt rd hhalf, ?_⟩
    rw [State.flags_complete, State.flags_dst_setC, State.src, bitFlag_toNat]

/-- Settles O32. The destination takes the sum, and the difference with 2^384 added, modulo 2^384. -/
theorem addAndSubtract : Obligations.AddAndSubtract := by
  intro rd ra rb s
  refine ⟨⟨decode_encode_of_wellFormed (i := .vadd rd ra rb) rfl, ?vadd⟩,
    ⟨decode_encode_of_wellFormed (i := .vsub rd ra rb) rfl, ?vsub⟩⟩
  case vadd =>
    refine ⟨_, exec_vadd rd ra rb s, s.succeeds_dst_setC rd _ _, s.src_dst_same rd _, ?_⟩
    rw [State.flags_complete, State.flags_dst_setC, carryFlag_eq (s.src_lt ra) (s.src_lt rb)]
  case vsub =>
    refine ⟨_, exec_vsub rd ra rb s, s.succeeds_dst_setC rd _ _, ?_, rfl⟩
    rw [State.src_complete, State.src_setC, State.src_dst_same]
    exact_mod_cast cast_sub_mod (s.src_lt rb)

/-- Settles O33. The product of two values below 2^384 fits the pair, whatever the overlap of the registers: the sources
are read before the pair is written. -/
theorem multiplyAndSquare : Obligations.MultiplyAndSquare := by
  intro rd ra rb s
  refine ⟨⟨decode_encode_of_iff (i := .vmul rd ra rb) groupFits_two_iff, fun h => ?vmul⟩,
    ⟨decode_encode_of_iff (i := .vsqr rd ra) groupFits_two_iff, fun h => ?vsqr⟩⟩
  case vmul => exact ⟨_, exec_vmul rd ra rb s h, s.succeeds_dstWide rd _, by simp, s.srcWide_product rd ra rb h⟩
  case vsqr => exact ⟨_, exec_vsqr rd ra s h, s.succeeds_dstWide rd _, by simp, s.srcWide_product rd ra ra h⟩

end Sys2Proof.Machine

/-! # Field and scalar arithmetic: MODADD, MODSUB, REDP and MODSQRT -/

namespace Sys2Proof

/-! ### The words of REDP and MODSQRT with M = 1 (R84, R88) -/

/-- A row that does not use M refuses M = 1 (R88). -/
theorem checked_of_unused_m {u : Uses} {w : Word64} (hu : u.m = false) (hm : fieldM w = 1) (i : Instr) :
    checked u w i = .error .illegalOperand := by
  simp [checked, unusedZero, hu, hm]

/-- The rows of REDP and MODSQRT do not use M, so a word of theirs with M = 1 fails decode (R84). -/
theorem decode_of_unused_m {w : Word64} (hop : fieldOp w = 0x24 ∨ fieldOp w = 0x26) (hm : fieldM w = 1) :
    decode w = .error .illegalOperand := by
  obtain hredp | hmodsqrt := hop
  · simp only [decode, hredp]
    exact checked_of_unused_m rfl hm _
  · simp only [decode, hmodsqrt]
    exact checked_of_unused_m rfl hm _

theorem decode_redp_of_m (rd ra : Reg) :
    decode (assemble 0x24 (rd := rd) (ra := ra) (m := 1)) = .error .illegalOperand :=
  decode_of_unused_m (.inl (fieldOp_assemble _ _ _ _ _ _ _ _ (by decide) (by decide) (by decide)))
    (fieldM_assemble _ _ _ _ _ _ _ _ (by decide) (by decide) (by decide))

theorem decode_modsqrt_of_m (rd ra : Reg) :
    decode (assemble 0x26 (rd := rd) (ra := ra) (m := 1)) = .error .illegalOperand :=
  decode_of_unused_m (.inr (fieldOp_assemble _ _ _ _ _ _ _ _ (by decide) (by decide) (by decide)))
    (fieldM_assemble _ _ _ _ _ _ _ _ (by decide) (by decide) (by decide))

end Sys2Proof

namespace Sys2Proof.Machine

set_option exponentiation.threshold 1000

/-! ### The sum and the difference mod m (R131, R132) -/

section Residues

variable {m a b : Nat}

/-- One subtraction of m corrects the sum of reduced operands (R131). -/
theorem modAdd_eq_mod (ha : a < m) (hb : b < m) : modAdd m a b = (a + b) % m := by
  rw [modAdd, Nat.add_mod_eq_ite, Nat.mod_eq_of_lt ha, Nat.mod_eq_of_lt hb]

/-- One addition of m corrects a difference of reduced operands that borrows (R132). -/
theorem modSub_eq_mod (ha : a < m) (hb : b < m) : modSub m a b = (a + m - b) % m := by
  rw [modSub]
  split
  next h => exact (Nat.mod_eq_of_lt (by omega)).symm
  next h => rw [Nat.sub_add_comm (not_lt.1 h), Nat.add_mod_right, Nat.mod_eq_of_lt (by omega)]

end Residues

/-! ### FastReduce and the two loops of R133 -/

/-- The fold loop ends at what the counted folds leave, when that has no high half. -/
theorem foldsTo_foldHigh {fuel x : Nat} (h : foldHigh fuel x < 2 ^ 384) : FoldsTo x (foldHigh fuel x) := by
  induction fuel generalizing x with
  | zero => exact .stop x (Nat.div_eq_of_lt h)
  | succ fuel ih =>
    rw [foldHigh] at h ⊢
    split at h
    next hhigh => rw [if_pos hhigh]; exact .stop x hhigh
    next hhigh => rw [if_neg hhigh]; exact .turn x _ hhigh (ih h)

/-- From a value of at most 2p the strict subtraction loop turns at most once (R139). -/
theorem subtractsTo_of_le {y : Nat} (h : y ≤ 2 * fieldPrime) :
    SubtractsTo y (if fieldPrime < y then y - fieldPrime else y) := by
  split
  next habove => exact .turn y _ habove (.stop _ (by omega))
  next hle => exact .stop y hle

theorem two_pow_le_two_mul_fieldPrime : 2 ^ 384 ≤ 2 * fieldPrime := by decide +kernel

/-- The model's FastReduce is where the two loops end (R133). -/
theorem reducesTo_fastReduce {x : Nat} (h : x < 2 ^ 768) : ReducesTo x (fastReduce x) :=
  have hfold := foldHigh_lt x h
  ⟨foldHigh 3 x, foldsTo_foldHigh hfold, subtractsTo_of_le (hfold.le.trans two_pow_le_two_mul_fieldPrime)⟩

/-- The subtraction loop leaves no value above p. -/
theorem SubtractsTo.le_fieldPrime {x y : Nat} (h : SubtractsTo x y) : y ≤ fieldPrime := by
  induction h with
  | stop x hle => exact not_lt.1 hle
  | turn x y _ _ ih => exact ih

theorem ReducesTo.le_fieldPrime {x r : Nat} (h : ReducesTo x r) : r ≤ fieldPrime := by
  obtain ⟨y, -, hsub⟩ := h
  exact hsub.le_fieldPrime

/-! ### Square roots mod a prime that is 3 mod 4 (R143) -/

section Roots

variable {p : Nat} [Fact p.Prime]

/-- The square of a^((p+1)/4) is a, times the value of Euler's criterion at a. -/
theorem sq_pow_quarter (hp : p % 4 = 3) (a : ZMod p) : (a ^ ((p + 1) / 4)) ^ 2 = a ^ (p / 2) * a := by
  rw [← pow_mul, ← pow_succ, show (p + 1) / 4 * 2 = p / 2 + 1 by omega]

theorem sq_pow_quarter_of_isSquare (hp : p % 4 = 3) {a : ZMod p} (h : IsSquare a) :
    (a ^ ((p + 1) / 4)) ^ 2 = a := by
  rw [sq_pow_quarter hp]
  by_cases ha : a = 0
  · rw [ha, mul_zero]
  · rw [(ZMod.euler_criterion p ha).1 h, one_mul]

theorem sq_pow_quarter_of_not_isSquare (hp : p % 4 = 3) {a : ZMod p} (h : ¬IsSquare a) :
    (a ^ ((p + 1) / 4)) ^ 2 = -a := by
  have ha : a ≠ 0 := fun h0 => h (h0 ▸ IsSquare.zero)
  have hone : a ^ (p / 2) ≠ 1 := fun h1 => h ((ZMod.euler_criterion p ha).2 h1)
  have hneg : a ^ (p / 2) = -1 := (ZMod.pow_div_two_eq_neg_one_or_one p ha).resolve_left hone
  rw [sq_pow_quarter hp, hneg, neg_one_mul]

/-- A reduced integer has a root mod p where its class is a square. -/
theorem exists_sq_mod_iff_isSquare {a : Nat} (ha : a < p) :
    (∃ y, y ^ 2 % p = a) ↔ IsSquare (a : ZMod p) := by
  have root_iff (y : Nat) : y ^ 2 % p = a ↔ (a : ZMod p) = (y : ZMod p) ^ 2 := by
    rw [← Nat.cast_pow, ZMod.natCast_eq_natCast_iff', Nat.mod_eq_of_lt ha, eq_comm]
  simp only [root_iff, isSquare_iff_exists_sq]
  exact ((ZMod.natCast_zmod_surjective (n := p)).exists (p := fun z => (a : ZMod p) = z ^ 2)).symm

end Roots

/-- MODSQRT's exponentiation is a^((p+1)/4) mod p (R143). -/
theorem sqrtCandidate_eq (a : Nat) : sqrtCandidate a = a ^ ((fieldPrime + 1) / 4) % fieldPrime :=
  powMod_eq fieldPrime a _ (by decide +kernel)

theorem sqrtCandidate_lt (a : Nat) : sqrtCandidate a < fieldPrime := by
  rw [sqrtCandidate_eq]
  exact Nat.mod_lt _ fieldPrime_pos

theorem cast_sqrtCandidate (a : Nat) :
    (sqrtCandidate a : ZMod fieldPrime) = (a : ZMod fieldPrime) ^ ((fieldPrime + 1) / 4) := by
  rw [sqrtCandidate_eq, ZMod.natCast_mod, Nat.cast_pow]

/-- The candidate for a residue is a root of it (R143). -/
theorem sqrtCandidate_sq_of_residue {a : Nat} (ha : a < fieldPrime) (h : ∃ y, y ^ 2 % fieldPrime = a) :
    sqrtCandidate a ^ 2 % fieldPrime = a := by
  have := Fact.mk fieldPrime_prime
  have hsq := (exists_sq_mod_iff_isSquare ha).1 h
  refine eq_of_cast_eq (Nat.mod_lt _ fieldPrime_pos) ha ?_
  rw [ZMod.natCast_mod, Nat.cast_pow, cast_sqrtCandidate, sq_pow_quarter_of_isSquare fieldPrime_mod_four hsq]

/-- The candidate for a non-residue is a root of its negative (R143). -/
theorem sqrtCandidate_sq_of_non_residue {a : Nat} (ha : a < fieldPrime) (h : ¬∃ y, y ^ 2 % fieldPrime = a) :
    (sqrtCandidate a ^ 2 + a) % fieldPrime = 0 := by
  have := Fact.mk fieldPrime_prime
  have hsq := mt (exists_sq_mod_iff_isSquare ha).2 h
  refine eq_of_cast_eq (Nat.mod_lt _ fieldPrime_pos) fieldPrime_pos ?_
  rw [ZMod.natCast_mod, Nat.cast_add, Nat.cast_pow, cast_sqrtCandidate,
    sq_pow_quarter_of_not_isSquare fieldPrime_mod_four hsq, neg_add_cancel, Nat.cast_zero]

/-! ### The range of a source pair, and the range check (R130, R138) -/

theorem State.srcAt_lt (s : State) (r : Reg) (k : Nat) : s.srcAt r k < 2 ^ 384 := (s.readV (r.toNat + k)).isLt

theorem State.srcWide_lt (s : State) (r : Reg) : s.srcWide r < 2 ^ 768 := by
  have hlow := s.srcAt_lt r 0
  have hhigh := s.srcAt_lt r 1
  rw [State.srcWide]
  omega

/-- A command that checks its sources fails with RANGE on one that is not reduced (R130). -/
theorem State.fails_of_exec_eq_reduced {s : State} {i : Instr} {n : Nat} {values : List Nat}
    {effect : Host.Outcome State Fault Refusal} (hexec : exec i s = reduced n values s effect)
    (h : ∃ x ∈ values, n ≤ x) : s.Fails i .range 0 :=
  ⟨_, hexec.trans (reduced_of_ge h s effect), s.failsTo_complete .range 0 (by decide)⟩

/-! ### What running each command answers -/

section Answers

variable (rd ra rb : Reg) (m : Modulus) (s : State)

theorem exec_modadd_eq : exec (.modadd rd ra rb m) s = reduced (modulusValue m) [s.src ra, s.src rb] s
    (succeed 0 (s.dst rd (modAdd (modulusValue m) (s.src ra) (s.src rb)))) := rfl

theorem exec_modsub_eq : exec (.modsub rd ra rb m) s = reduced (modulusValue m) [s.src ra, s.src rb] s
    (succeed 0 (s.dst rd (modSub (modulusValue m) (s.src ra) (s.src rb)))) := rfl

theorem exec_modsqrt_eq : exec (.modsqrt rd ra) s = reduced fieldPrime [s.src ra] s
    (succeed 0 (s.dst rd (sqrtCandidate (s.src ra)))) := rfl

theorem exec_redp (h : ra.toNat ≤ 14) :
    exec (.redp rd ra) s = .next ((s.dst rd (fastReduce (s.srcWide ra))).complete .ok 0) :=
  guarded_of_wellFormed (i := .redp rd ra) (groupFits_two_iff.2 h) s _

end Answers

/-! ### The claims -/

/-- Settles O34. The range check splits the cases; on reduced sources the single correction is the residue. -/
theorem modularAddAndSubtract : Obligations.ModularAddAndSubtract := by
  intro rd ra rb m s
  have hmod := modulusValue_pos m
  have hfits : ∀ x, x % modulusValue m < 2 ^ 384 := fun x => (Nat.mod_lt x hmod).trans (modulusValue_lt m)
  refine ⟨⟨decode_encode_of_wellFormed (i := .modadd rd ra rb m) rfl,
      fun h => State.fails_of_exec_eq_reduced (exec_modadd_eq rd ra rb m s) (by simpa using h), fun ha hb => ?modadd⟩,
    ⟨decode_encode_of_wellFormed (i := .modsub rd ra rb m) rfl,
      fun h => State.fails_of_exec_eq_reduced (exec_modsub_eq rd ra rb m s) (by simpa using h), fun ha hb => ?modsub⟩⟩
  case modadd =>
    have hexec := (exec_modadd_eq rd ra rb m s).trans (reduced_of_lt (by simp [ha, hb]) s _)
    refine ⟨_, hexec, s.succeeds_dst rd _, by simp, ?_⟩
    rw [State.src_complete, modAdd_eq_mod ha hb, s.src_dst_of_lt rd (hfits _)]
  case modsub =>
    have hexec := (exec_modsub_eq rd ra rb m s).trans (reduced_of_lt (by simp [ha, hb]) s _)
    refine ⟨_, hexec, s.succeeds_dst rd _, by simp, ?_⟩
    rw [State.src_complete, modSub_eq_mod ha hb, s.src_dst_of_lt rd (hfits _), cast_sub_mod hb]

/-- Settles O36. Three folds and one subtraction are all the turns the two loops take on a 768-bit value. -/
theorem redpRunsTheTwoLoops : Obligations.RedpRunsTheTwoLoops := by
  intro rd ra s
  refine ⟨decode_encode_of_iff (i := .redp rd ra) groupFits_two_iff, decode_redp_of_m rd ra, fun h => ?_⟩
  have hred : ReducesTo (s.srcWide ra) (fastReduce (s.srcWide ra)) := reducesTo_fastReduce (s.srcWide_lt ra)
  have hle := hred.le_fieldPrime
  refine ⟨_, exec_redp rd ra s h, s.succeeds_dst rd _, by simp, ?_⟩
  rw [State.src_complete, s.src_dst_of_lt rd (hle.trans_lt fieldPrime_lt)]
  exact ⟨hred, hle⟩

/-- Settles O39. p ≡ 3 (mod 4), so the square of a^((p+1)/4) is a times Euler's criterion at a. -/
theorem modularSquareRoot : Obligations.ModularSquareRoot := by
  intro rd ra s
  refine ⟨decode_encode_of_wellFormed (i := .modsqrt rd ra) rfl, decode_modsqrt_of_m rd ra,
    fun h => State.fails_of_exec_eq_reduced (exec_modsqrt_eq rd ra s) (by simpa using h), fun ha => ?_⟩
  have hexec := (exec_modsqrt_eq rd ra s).trans (reduced_of_lt (by simp [ha]) s _)
  refine ⟨_, hexec, s.succeeds_dst rd _, by simp, ?_⟩
  rw [State.src_complete, s.src_dst_of_lt rd ((sqrtCandidate_lt _).trans fieldPrime_lt)]
  exact ⟨sqrtCandidate_eq _, sqrtCandidate_sq_of_residue ha, sqrtCandidate_sq_of_non_residue ha⟩

end Sys2Proof.Machine

/-! # Curve point commands: JDBL, APPLYZ, COZADD and COZADDC -/

namespace Sys2Proof

/-! ### The operand checks of the point commands (R81, R82) -/

/-- The last register a triple can start at is V13 (R81). -/
theorem groupFits_three_iff {r : Reg} : groupFits 3 r = true ↔ r.toNat ≤ 13 := by
  rw [groupFits, decide_eq_true_iff]
  omega

/-- Two co-Z pairs inside V0..V15 that share no register (R82). -/
theorem cozPairs_wellFormed_iff {ra rb : Reg} :
    (groupFits 2 ra && groupFits 2 rb && pairsDisjoint ra rb) = true ↔
      ra.toNat ≤ 14 ∧ rb.toNat ≤ 14 ∧ (ra.toNat + 2 ≤ rb.toNat ∨ rb.toNat + 2 ≤ ra.toNat) := by
  rw [Bool.and_eq_true, Bool.and_eq_true, groupFits_two_iff, groupFits_two_iff, pairsDisjoint, decide_eq_true_iff,
    and_assoc]

end Sys2Proof

namespace Sys2Proof.Machine

set_option exponentiation.threshold 1000

/-! ### Co-ordinate pairs below p (R160) -/

/-- Both co-ordinates are reduced (R160). -/
def CoordsReduced (xy : Nat × Nat) : Prop := xy.1 < fieldPrime ∧ xy.2 < fieldPrime

theorem State.coordsReduced_srcPair_iff {s : State} {r : Reg} :
    CoordsReduced (s.srcPair r) ↔ ∀ k, k < 2 → s.srcAt r k < fieldPrime where
  mp
    | ⟨hx, _⟩, 0, _ => hx
    | ⟨_, hy⟩, 1, _ => hy
  mpr h := ⟨h 0 (by decide), h 1 (by decide)⟩

/-- A field element fits a register. -/
theorem toNat_ofNat_of_reduced {x : Nat} (h : x < fieldPrime) : (BitVec.ofNat 384 x).toNat = x := by
  rw [BitVec.toNat_ofNat, Nat.mod_eq_of_lt (h.trans fieldPrime_lt)]

/-! ### Groups of registers read after they are written -/

section Groups

variable (s : State) (r : Reg)

@[simp] theorem State.srcAt_complete (code : ErrCode) (count k : Nat) :
    (s.complete code count).srcAt r k = s.srcAt r k := rfl

@[simp] theorem State.srcPair_complete (code : ErrCode) (count : Nat) :
    (s.complete code count).srcPair r = s.srcPair r := rfl

@[simp] theorem State.flags_dstPair (xy : Nat × Nat) : (s.dstPair r xy).flags = s.flags := rfl

@[simp] theorem State.flags_dstTriple (xyz : Nat × Nat × Nat) : (s.dstTriple r xyz).flags = s.flags := rfl

/-- A pair inside V0..V15 holds the co-ordinates written to it. -/
theorem State.srcPair_dstPair_same {xy : Nat × Nat} (hr : r.toNat ≤ 14) (h : CoordsReduced xy) :
    (s.dstPair r xy).srcPair r = xy := by
  obtain ⟨hx, hy⟩ := h
  have hfst : (s.dstPair r xy).srcAt r 0 = xy.1 := by
    rw [State.srcAt, s.readV_dstPair r xy _ (by omega), if_neg (by omega), if_pos (Nat.add_zero _).symm,
      toNat_ofNat_of_reduced hx]
  have hsnd : (s.dstPair r xy).srcAt r 1 = xy.2 := by
    rw [State.srcAt, s.readV_dstPair r xy _ (by omega), if_pos rfl, toNat_ofNat_of_reduced hy]
  exact Prod.ext hfst hsnd

/-- A pair is left as it was by a write to a pair that it shares no register with. -/
theorem State.srcPair_dstPair_other {q : Reg} (xy : Nat × Nat) (hq : q.toNat ≤ 14)
    (hdisjoint : q.toNat + 2 ≤ r.toNat ∨ r.toNat + 2 ≤ q.toNat) : (s.dstPair r xy).srcPair q = s.srcPair q := by
  have hkeep (k : Nat) (hk : k < 2) : (s.dstPair r xy).srcAt q k = s.srcAt q k := by
    rw [State.srcAt, s.readV_dstPair r xy _ (by omega), if_neg (by omega), if_neg (by omega), State.srcAt]
  exact Prod.ext (hkeep 0 (by decide)) (hkeep 1 (by decide))

/-- A triple inside V0..V15 holds the co-ordinates written to it. -/
theorem State.srcAt_dstTriple {xyz : Nat × Nat × Nat} (hr : r.toNat ≤ 13)
    (h : xyz.1 < fieldPrime ∧ xyz.2.1 < fieldPrime ∧ xyz.2.2 < fieldPrime) :
    ((s.dstTriple r xyz).srcAt r 0, (s.dstTriple r xyz).srcAt r 1, (s.dstTriple r xyz).srcAt r 2) = xyz := by
  obtain ⟨hx, hy, hz⟩ := h
  have hfst : (s.dstTriple r xyz).srcAt r 0 = xyz.1 := by
    rw [State.srcAt, s.readV_dstTriple r xyz _ (by omega), if_neg (by omega), if_neg (by omega),
      if_pos (Nat.add_zero _).symm, toNat_ofNat_of_reduced hx]
  have hsnd : (s.dstTriple r xyz).srcAt r 1 = xyz.2.1 := by
    rw [State.srcAt, s.readV_dstTriple r xyz _ (by omega), if_neg (by omega), if_pos rfl, toNat_ofNat_of_reduced hy]
  have hthird : (s.dstTriple r xyz).srcAt r 2 = xyz.2.2 := by
    rw [State.srcAt, s.readV_dstTriple r xyz _ (by omega), if_pos rfl, toNat_ofNat_of_reduced hz]
  rw [hfst, hsnd, hthird]

/-! ### The frame of a write to a group -/

theorem State.KeepsV.trans {s s' t : State} {written written' : List Nat} (h : s.KeepsV s' written)
    (h' : s'.KeepsV t written') : s.KeepsV t (written ++ written') := by
  intro j hj hother
  obtain ⟨hfirst, hsecond⟩ := not_or.1 (mt List.mem_append.2 hother)
  rw [h' j hj hsecond, h j hj hfirst]

theorem State.keepsV_dstPair (xy : Nat × Nat) : s.KeepsV (s.dstPair r xy) [r.toNat, r.toNat + 1] := by
  intro j hj hother
  obtain ⟨hx, hy⟩ : j ≠ r.toNat ∧ j ≠ r.toNat + 1 := by simpa using hother
  rw [s.readV_dstPair r xy j hj, if_neg hy.symm, if_neg hx.symm]

theorem State.keepsV_dstTriple (xyz : Nat × Nat × Nat) :
    s.KeepsV (s.dstTriple r xyz) [r.toNat, r.toNat + 1, r.toNat + 2] := by
  intro j hj hother
  obtain ⟨hx, hy, hz⟩ : j ≠ r.toNat ∧ j ≠ r.toNat + 1 ∧ j ≠ r.toNat + 2 := by simpa using hother
  rw [s.readV_dstTriple r xyz j hj, if_neg hz.symm, if_neg hy.symm, if_neg hx.symm]

theorem State.succeeds_dstPair (xy : Nat × Nat) :
    s.Succeeds ((s.dstPair r xy).complete .ok 0) [r.toNat, r.toNat + 1] :=
  State.succeeds_of_precedes (s.precedes_of_v _ _ _ _ _ _) (s.keepsV_dstPair r xy) rfl

theorem State.succeeds_dstTriple (xyz : Nat × Nat × Nat) :
    s.Succeeds ((s.dstTriple r xyz).complete .ok 0) [r.toNat, r.toNat + 1, r.toNat + 2] :=
  State.succeeds_of_precedes (s.precedes_of_v _ _ _ _ _ _) (s.keepsV_dstTriple r xyz) rfl

theorem State.succeeds_dstPair_dstPair (q : Reg) (xy xy' : Nat × Nat) :
    s.Succeeds (((s.dstPair r xy).dstPair q xy').complete .ok 0) [r.toNat, r.toNat + 1, q.toNat, q.toNat + 1] :=
  State.succeeds_of_precedes (s.precedes_of_v _ _ _ _ _ _)
    ((s.keepsV_dstPair r xy).trans ((s.dstPair r xy).keepsV_dstPair q xy')) rfl

end Groups

/-! ### The formulas as equations over F_p -/

section Formulas

/-- The doubling formulas (R161), with B the half of 3(X − Z²)(X + Z²). -/
theorem jacobianDouble_formulas {x y z x' y' z' : Nat} (h : (x', y', z') = jacobianDouble x y z) :
    ∃ A B : ZMod fieldPrime, A = x * y ^ 2 ∧ 2 * B = 3 * (x - z ^ 2) * (x + z ^ 2) ∧
      (x' : ZMod fieldPrime) = B ^ 2 - 2 * A ∧ (y' : ZMod fieldPrime) = B * (A - x') - y ^ 4 ∧
      (z' : ZMod fieldPrime) = y * z := by
  obtain ⟨rfl, rfl, rfl⟩ : _ ∧ _ ∧ _ := by simpa only [jacobianDouble, Prod.mk.injEq] using h
  refine ⟨x * y ^ 2, fhalf (fmul 3 (fmul (fsub x (fsqr z)) (fadd x (fsqr z)))), rfl, ?_, ?_, ?_, ?_⟩
  · simp [two_mul_cast_fhalf, mul_assoc]
  · simp
  · simp [← pow_mul]
  · simp

theorem jacobianDouble_reduced (x y z : Nat) :
    (jacobianDouble x y z).1 < fieldPrime ∧ (jacobianDouble x y z).2.1 < fieldPrime ∧
      (jacobianDouble x y z).2.2 < fieldPrime :=
  ⟨fsub_lt _ _, fsub_lt _ _, fmul_lt _ _⟩

theorem applyZ_eq (x y z : Nat) : applyZ x y z = (x * z ^ 2 % fieldPrime, y * z ^ 3 % fieldPrime) := by
  have hsqr : fsqr z = z ^ 2 % fieldPrime := by rw [fsqr, fmul, pow_two]
  have hcube : fmul (fsqr z) z = z ^ 3 % fieldPrime := by rw [hsqr, fmul, Nat.mod_mul_mod, ← pow_succ]
  rw [applyZ, hcube, hsqr, fmul, fmul, Nat.mul_mod_mod, Nat.mul_mod_mod]

theorem applyZ_reduced (x y z : Nat) : CoordsReduced (applyZ x y z) := ⟨fmul_lt _ _, fmul_lt _ _⟩

variable {p q p' q' : Nat × Nat}

/-- The formulas of CozAdd (R165). -/
theorem cozAdd_formulas (h : (p', q') = cozAdd p q) :
    let A : ZMod fieldPrime := (q.1 - p.1) ^ 2
    let B : ZMod fieldPrime := p.1 * A
    let C : ZMod fieldPrime := q.1 * A
    (p'.1 : ZMod fieldPrime) = B ∧ (p'.2 : ZMod fieldPrime) = p.2 * (C - B) ∧
      (q'.1 : ZMod fieldPrime) = (q.2 - p.2) ^ 2 - B - C ∧
      (q'.2 : ZMod fieldPrime) = (q.2 - p.2) * (B - q'.1) - p.2 * (C - B) := by
  obtain ⟨rfl, rfl⟩ : _ ∧ _ := by simpa only [cozAdd, Prod.mk.injEq] using h
  simp

/-- The formulas of CozAddC (R167). -/
theorem cozAddC_formulas (h : (p', q') = cozAddC p q) :
    let A : ZMod fieldPrime := (q.1 - p.1) ^ 2
    let B : ZMod fieldPrime := p.1 * A
    let C : ZMod fieldPrime := q.1 * A
    (p'.1 : ZMod fieldPrime) = (q.2 + p.2) ^ 2 - (B + C) ∧
      (p'.2 : ZMod fieldPrime) = (q.2 + p.2) * (p'.1 - B) - p.2 * (C - B) ∧
      (q'.1 : ZMod fieldPrime) = (q.2 - p.2) ^ 2 - (B + C) ∧
      (q'.2 : ZMod fieldPrime) = (q.2 - p.2) * (B - q'.1) - p.2 * (C - B) := by
  obtain ⟨rfl, rfl⟩ : _ ∧ _ := by simpa only [cozAddC, Prod.mk.injEq] using h
  simp

theorem cozAdd_reduced (p q : Nat × Nat) : CoordsReduced (cozAdd p q).1 ∧ CoordsReduced (cozAdd p q).2 :=
  ⟨⟨fmul_lt _ _, fmul_lt _ _⟩, fsub_lt _ _, fsub_lt _ _⟩

theorem cozAddC_reduced (p q : Nat × Nat) : CoordsReduced (cozAddC p q).1 ∧ CoordsReduced (cozAddC p q).2 :=
  ⟨⟨fsub_lt _ _, fsub_lt _ _⟩, fsub_lt _ _, fsub_lt _ _⟩

end Formulas

/-! ### What running each command answers -/

section Answers

variable (rd rc ra rb : Reg) (s : State)

theorem exec_jdbl_eq (h : rd.toNat ≤ 13) :
    exec (.jdbl rd) s = reduced fieldPrime [s.srcAt rd 0, s.srcAt rd 1, s.srcAt rd 2] s
      (if s.srcAt rd 2 = 0 then succeed 0 s
       else succeed 0 (s.dstTriple rd (jacobianDouble (s.srcAt rd 0) (s.srcAt rd 1) (s.srcAt rd 2)))) :=
  guarded_of_wellFormed (i := .jdbl rd) (groupFits_three_iff.2 h) s _

theorem exec_applyz_eq (h : rd.toNat ≤ 14) :
    exec (.applyz rd rc) s = reduced fieldPrime [s.srcAt rd 0, s.srcAt rd 1, s.src rc] s
      (succeed 0 (s.dstPair rd (applyZ (s.srcAt rd 0) (s.srcAt rd 1) (s.src rc)))) :=
  guarded_of_wellFormed (i := .applyz rd rc) (groupFits_two_iff.2 h) s _

variable {ra rb}
variable (h : ra.toNat ≤ 14 ∧ rb.toNat ≤ 14 ∧ (ra.toNat + 2 ≤ rb.toNat ∨ rb.toNat + 2 ≤ ra.toNat))

include h

theorem exec_cozadd_eq :
    exec (.cozadd ra rb) s = reduced fieldPrime [s.srcAt ra 0, s.srcAt ra 1, s.srcAt rb 0, s.srcAt rb 1] s
      (succeed 0 ((s.dstPair ra (cozAdd (s.srcPair ra) (s.srcPair rb)).1).dstPair rb
        (cozAdd (s.srcPair ra) (s.srcPair rb)).2)) :=
  guarded_of_wellFormed (i := .cozadd ra rb) (cozPairs_wellFormed_iff.2 h) s _

theorem exec_cozaddc_eq :
    exec (.cozaddc ra rb) s = reduced fieldPrime [s.srcAt ra 0, s.srcAt ra 1, s.srcAt rb 0, s.srcAt rb 1] s
      (succeed 0 ((s.dstPair ra (cozAddC (s.srcPair ra) (s.srcPair rb)).1).dstPair rb
        (cozAddC (s.srcPair ra) (s.srcPair rb)).2)) :=
  guarded_of_wellFormed (i := .cozaddc ra rb) (cozPairs_wellFormed_iff.2 h) s _

end Answers

/-! ### The commands on reduced co-ordinates -/

section Results

variable {s : State}

/-- JDBL with Z ≠ 0 leaves the doubled triple in its registers (R161). -/
theorem exec_jdbl_of_reduced {rd : Reg} (hrd : rd.toNat ≤ 13) (hx : s.srcAt rd 0 < fieldPrime)
    (hy : s.srcAt rd 1 < fieldPrime) (hz : s.srcAt rd 2 < fieldPrime) (hne : s.srcAt rd 2 ≠ 0) :
    ∃ t, exec (.jdbl rd) s = .next t ∧ s.Succeeds t [rd.toNat, rd.toNat + 1, rd.toNat + 2] ∧ t.flags = s.flags ∧
      (t.srcAt rd 0, t.srcAt rd 1, t.srcAt rd 2) =
        jacobianDouble (s.srcAt rd 0) (s.srcAt rd 1) (s.srcAt rd 2) := by
  have hexec := (exec_jdbl_eq rd s hrd).trans (reduced_of_lt (by simp [hx, hy, hz]) s _)
  rw [if_neg hne] at hexec
  refine ⟨_, hexec, s.succeeds_dstTriple rd _, by simp, ?_⟩
  simp only [State.srcAt_complete]
  exact s.srcAt_dstTriple rd hrd (jacobianDouble_reduced _ _ _)

/-- APPLYZ leaves the product pair in its registers (R163). -/
theorem exec_applyz_of_reduced {rd rc : Reg} (hrd : rd.toNat ≤ 14) (hx : s.srcAt rd 0 < fieldPrime)
    (hy : s.srcAt rd 1 < fieldPrime) (hz : s.src rc < fieldPrime) :
    ∃ t, exec (.applyz rd rc) s = .next t ∧ s.Succeeds t [rd.toNat, rd.toNat + 1] ∧ t.flags = s.flags ∧
      t.srcPair rd = applyZ (s.srcAt rd 0) (s.srcAt rd 1) (s.src rc) := by
  have hexec := (exec_applyz_eq rd rc s hrd).trans (reduced_of_lt (by simp [hx, hy, hz]) s _)
  refine ⟨_, hexec, s.succeeds_dstPair rd _, by simp, ?_⟩
  rw [State.srcPair_complete, s.srcPair_dstPair_same rd hrd (applyZ_reduced _ _ _)]

variable {ra rb : Reg} (h : ra.toNat ≤ 14 ∧ rb.toNat ≤ 14 ∧ (ra.toNat + 2 ≤ rb.toNat ∨ rb.toNat + 2 ≤ ra.toNat))
  (hp : CoordsReduced (s.srcPair ra)) (hq : CoordsReduced (s.srcPair rb))

include h hp hq

/-- A command that computes two reduced pairs from reduced ones, and writes both, leaves both in their registers: the
second write does not reach the first pair. -/
theorem exec_of_cozOperation {i : Instr} {r : (Nat × Nat) × (Nat × Nat)} (hr : CoordsReduced r.1 ∧ CoordsReduced r.2)
    (hi : exec i s = reduced fieldPrime [s.srcAt ra 0, s.srcAt ra 1, s.srcAt rb 0, s.srcAt rb 1] s
      (succeed 0 ((s.dstPair ra r.1).dstPair rb r.2))) :
    ∃ t, exec i s = .next t ∧ s.Succeeds t [ra.toNat, ra.toNat + 1, rb.toNat, rb.toNat + 1] ∧ t.flags = s.flags ∧
      (∀ k, k < 2 → t.srcAt ra k < fieldPrime ∧ t.srcAt rb k < fieldPrime) ∧ (t.srcPair ra, t.srcPair rb) = r := by
  obtain ⟨hra, hrb, hdisjoint⟩ := h
  obtain ⟨hx1, hy1⟩ := hp
  obtain ⟨hx2, hy2⟩ := hq
  obtain ⟨hfirst, hsecond⟩ := hr
  have hsources : ∀ x ∈ [s.srcAt ra 0, s.srcAt ra 1, s.srcAt rb 0, s.srcAt rb 1], x < fieldPrime := by
    simpa using ⟨hx1, hy1, hx2, hy2⟩
  have hexec := hi.trans (reduced_of_lt hsources s _)
  have hpair : (((s.dstPair ra r.1).dstPair rb r.2).complete .ok 0).srcPair ra = r.1 := by
    rw [State.srcPair_complete, State.srcPair_dstPair_other _ rb _ hra hdisjoint, s.srcPair_dstPair_same ra hra hfirst]
  have hpair' : (((s.dstPair ra r.1).dstPair rb r.2).complete .ok 0).srcPair rb = r.2 := by
    rw [State.srcPair_complete, State.srcPair_dstPair_same _ rb hrb hsecond]
  rw [← hpair] at hfirst
  rw [← hpair'] at hsecond
  exact ⟨_, hexec, s.succeeds_dstPair_dstPair ra rb _ _, by simp,
    fun k hk => ⟨State.coordsReduced_srcPair_iff.1 hfirst k hk, State.coordsReduced_srcPair_iff.1 hsecond k hk⟩,
    Prod.ext hpair hpair'⟩

end Results

/-! ### The claims -/

/-- Settles O40. The range check and Z = 0 split the cases; B is the model's half of 3(X − Z²)(X + Z²). -/
theorem jdblRunsTheFormulas : Obligations.JdblRunsTheFormulas := by
  intro rd s X Y Z
  refine ⟨decode_encode_of_iff (i := .jdbl rd) groupFits_three_iff, fun hrd =>
    ⟨fun hge => State.fails_of_exec_eq_reduced (exec_jdbl_eq rd s hrd) (by simpa using hge),
      fun hx hy hz => ⟨fun hzero => ?infinity, fun hne => ?double⟩⟩⟩
  case infinity =>
    have hexec := (exec_jdbl_eq rd s hrd).trans (reduced_of_lt (by simp [X, Y, Z, hx, hy, hz]) s _)
    rw [if_pos hzero] at hexec
    exact ⟨_, hexec, s.succeeds_complete, State.flags_complete _ _ _⟩
  case double =>
    obtain ⟨t, hexec, hsucceeds, hflags, hvalue⟩ := exec_jdbl_of_reduced hrd hx hy hz hne
    have hreduced := jacobianDouble_reduced X Y Z
    rw [← hvalue] at hreduced
    obtain ⟨hx', hy', hz'⟩ := hreduced
    exact ⟨t, hexec, hsucceeds, hflags, hx', hy', hz', jacobianDouble_formulas hvalue⟩

/-- Settles O41. All three sources are read from the state before the write, so RC may be one of the registers
written (R163). -/
theorem applyzMultipliesInZ : Obligations.ApplyzMultipliesInZ := by
  intro rd rc s X Y Z
  refine ⟨decode_encode_of_iff (i := .applyz rd rc) groupFits_two_iff, fun hrd =>
    ⟨fun hge => State.fails_of_exec_eq_reduced (exec_applyz_eq rd rc s hrd) (by simpa using hge),
      fun hx hy hz => ?_⟩⟩
  obtain ⟨t, hexec, hsucceeds, hflags, hvalue⟩ := exec_applyz_of_reduced hrd hx hy hz
  rw [applyZ_eq] at hvalue
  obtain ⟨hx', hy'⟩ := Prod.ext_iff.1 hvalue
  exact ⟨t, hexec, hsucceeds, hflags, hx', hy'⟩

/-- Settles O42. Both commands check the same four sources and write the same two pairs; they differ in the operation
between. -/
theorem cozCommandsRunTheFormulas : Obligations.CozCommandsRunTheFormulas := by
  intro ra rb s x1 y1 x2 y2 legal written A B C
  refine ⟨decode_encode_of_iff (i := .cozadd ra rb) cozPairs_wellFormed_iff,
    decode_encode_of_iff (i := .cozaddc ra rb) cozPairs_wellFormed_iff, fun h =>
    ⟨fun hge => ?range, fun hx1 hy1 hx2 hy2 => ⟨?cozadd, ?cozaddc⟩⟩⟩
  case range =>
    have hsource : ∃ v ∈ [x1, y1, x2, y2], fieldPrime ≤ v := by simpa using hge
    exact ⟨State.fails_of_exec_eq_reduced (exec_cozadd_eq s h) hsource,
      State.fails_of_exec_eq_reduced (exec_cozaddc_eq s h) hsource⟩
  case cozadd =>
    obtain ⟨t, hexec, hsucceeds, hflags, hreduced, hvalue⟩ :=
      exec_of_cozOperation h ⟨hx1, hy1⟩ ⟨hx2, hy2⟩ (cozAdd_reduced _ _) (exec_cozadd_eq s h)
    exact ⟨t, hexec, hsucceeds, hflags, hreduced, cozAdd_formulas hvalue⟩
  case cozaddc =>
    obtain ⟨t, hexec, hsucceeds, hflags, hreduced, hvalue⟩ :=
      exec_of_cozOperation h ⟨hx1, hy1⟩ ⟨hx2, hy2⟩ (cozAddC_reduced _ _) (exec_cozaddc_eq s h)
    exact ⟨t, hexec, hsucceeds, hflags, hreduced, cozAddC_formulas hvalue⟩

end Sys2Proof.Machine

/-! # Scalar multiplication: LSTEP -/

namespace Sys2Proof

/-- The last register a quad can start at is V12, and LSTEP's bit is 0 or 1 (R81, R83). -/
theorem lstep_wellFormed_iff {ra : Reg} {imm : Imm} :
    (groupFits 4 ra && immAtMost 1 imm) = true ↔ ra.toNat ≤ 12 ∧ imm.toNat ≤ 1 := by
  rw [Bool.and_eq_true, immAtMost_iff, groupFits, decide_eq_true_iff]
  exact and_congr_left' (Nat.add_le_add_iff_right (n := 4) (k := 12))

end Sys2Proof

namespace Sys2Proof.Machine

/-! ### A quad is two pairs (R20, R181) -/

section Quads

variable {ra : Reg} (hra : ra.toNat ≤ 12) (s : State)

include hra

/-- The second pair of a quad that fits V0..V15 starts two registers above the first. -/
theorem toNat_add_two : (ra + 2).toNat = ra.toNat + 2 := by
  rw [BitVec.toNat_add]
  exact Nat.mod_eq_of_lt (Nat.lt_of_le_of_lt (Nat.add_le_add_right hra 2) (by decide))

theorem State.srcAt_add_two (k : Nat) : s.srcAt (ra + 2) k = s.srcAt ra (k + 2) := by
  rw [State.srcAt, State.srcAt, toNat_add_two hra, add_assoc, add_comm k 2]

theorem State.srcPairAt_two : s.srcPairAt ra 2 = s.srcPair (ra + 2) := by
  rw [State.srcPair, s.srcAt_add_two hra, s.srcAt_add_two hra, State.srcPairAt]

theorem State.dstPairAt_two (xy : Nat × Nat) : s.dstPairAt ra 2 xy = s.dstPair (ra + 2) xy := by
  simp only [State.dstPairAt, State.dstPair, State.dstAt, toNat_add_two hra, add_assoc, Nat.reduceAdd]

/-- The two pairs of a quad fit V0..V15 and share no register. -/
theorem quad_pairs_legal :
    ra.toNat ≤ 14 ∧ (ra + 2).toNat ≤ 14 ∧ (ra.toNat + 2 ≤ (ra + 2).toNat ∨ (ra + 2).toNat + 2 ≤ ra.toNat) := by
  rw [toNat_add_two hra]
  omega

end Quads

/-! ### The ladder step (R181) -/

theorem ladderStep_reduced (b : Nat) (r0 r1 : Nat × Nat) :
    CoordsReduced (ladderStep b r0 r1).1 ∧ CoordsReduced (ladderStep b r0 r1).2 := by
  rw [ladderStep]
  split
  · exact (cozAdd_reduced _ _).symm
  · exact cozAdd_reduced _ _

/-- LSTEP reads and writes the quad as its two pairs. -/
theorem exec_lstep_eq {ra : Reg} {imm : Imm} (hra : ra.toNat ≤ 12) (himm : imm.toNat ≤ 1) (s : State) :
    exec (.lstep ra imm) s =
      reduced fieldPrime [s.srcAt ra 0, s.srcAt ra 1, s.srcAt (ra + 2) 0, s.srcAt (ra + 2) 1] s
        (succeed 0 ((s.dstPair ra (ladderStep imm.toNat (s.srcPair ra) (s.srcPair (ra + 2))).1).dstPair (ra + 2)
          (ladderStep imm.toNat (s.srcPair ra) (s.srcPair (ra + 2))).2)) := by
  rw [← s.srcPairAt_two hra, ← State.dstPairAt_two hra, s.srcAt_add_two hra, s.srcAt_add_two hra]
  exact guarded_of_wellFormed (i := .lstep ra imm) (lstep_wellFormed_iff.2 ⟨hra, himm⟩) s _

/-- LSTEP on a reduced quad leaves the ladder step in its two pairs. -/
theorem exec_lstep_of_reduced {ra : Reg} {imm : Imm} {s : State} (hra : ra.toNat ≤ 12) (himm : imm.toNat ≤ 1)
    (hs : ∀ k, k < 4 → s.srcAt ra k < fieldPrime) :
    ∃ t, exec (.lstep ra imm) s = .next t ∧
      s.Succeeds t [ra.toNat, ra.toNat + 1, ra.toNat + 2, ra.toNat + 3] ∧ t.flags = s.flags ∧
      (t.srcPairAt ra 0, t.srcPairAt ra 2) = ladderStep imm.toNat (s.srcPairAt ra 0) (s.srcPairAt ra 2) := by
  have hfirst : CoordsReduced (s.srcPair ra) := ⟨hs 0 (by decide), hs 1 (by decide)⟩
  have hsecond : CoordsReduced (s.srcPairAt ra 2) := ⟨hs 2 (by decide), hs 3 (by decide)⟩
  rw [s.srcPairAt_two hra] at hsecond ⊢
  obtain ⟨t, hexec, hsucceeds, hflags, -, hvalue⟩ :=
    exec_of_cozOperation (quad_pairs_legal hra) hfirst hsecond (ladderStep_reduced _ _ _) (exec_lstep_eq hra himm s)
  rw [← t.srcPairAt_two hra] at hvalue
  rw [toNat_add_two hra] at hsucceeds
  exact ⟨t, hexec, hsucceeds, hflags, hvalue⟩

/-! ### The claim -/

/-- Settles O43. The quad is read and written as two disjoint pairs, as the co-Z commands do; the bit picks the order
of the two operations. -/
theorem lstepIsTwoCozOperations : Obligations.LstepIsTwoCozOperations := by
  intro ra imm s R0 R1 legal
  refine ⟨decode_encode_of_iff (i := .lstep ra imm) lstep_wellFormed_iff, fun ⟨hra, himm⟩ =>
    ⟨fun ⟨k, hk, hge⟩ => ?range, fun hs => ?step⟩⟩
  case range =>
    refine State.fails_of_exec_eq_reduced (exec_lstep_eq hra himm s) ⟨s.srcAt ra k, ?_, hge⟩
    rw [s.srcAt_add_two hra, s.srcAt_add_two hra]
    interval_cases k <;> simp
  case step =>
    obtain ⟨t, hexec, hsucceeds, hflags, hvalue⟩ := exec_lstep_of_reduced hra himm hs
    refine ⟨t, hexec, hsucceeds, hflags, ?zero, ?one⟩
    case zero =>
      rintro rfl
      exact Prod.ext_iff.1 hvalue
    case one =>
      rintro rfl
      exact Prod.ext_iff.1 hvalue

end Sys2Proof.Machine

/-! # The binary extended Euclid inverts (R140, R141) -/

namespace Sys2Proof.Machine

set_option exponentiation.threshold 1000

/-! ### Halving and subtraction mod m as operations of Z/m -/

section Residues

variable {m u v : Nat}

theorem two_mul_cast_half (hm : m % 2 = 1) (t : Nat) : (2 : ZMod m) * (half m t : Nat) = t := by
  have h := (ZMod.natCast_eq_natCast_iff _ _ m).2 (two_mul_half m t hm)
  simpa using h

theorem isUnit_two (hm : m % 2 = 1) : IsUnit (2 : ZMod m) :=
  (ZMod.isUnit_iff_coprime 2 m).2 (Nat.coprime_two_left.2 (Nat.odd_iff.2 hm))

theorem modSub_lt (hu : u < m) (hv : v < m) : modSub m u v < m := by
  rw [modSub_eq_mod hu hv]
  exact Nat.mod_lt _ (Nat.zero_lt_of_lt hu)

theorem cast_modSub (hu : u < m) (hv : v < m) : (modSub m u v : ZMod m) = u - v := by
  rw [modSub_eq_mod hu hv, ZMod.natCast_mod, Nat.cast_sub (hv.le.trans (Nat.le_add_left m u)), Nat.cast_add,
    ZMod.natCast_self, add_zero]

end Residues

/-! ### What a turn of the loop keeps -/

/-- The invariant of BinInv's loop for the inverse of x mod m (R141): a and b are coprime and positive, and u and v are
residues with x·u = a and x·v = b. -/
structure EuclidInvariant (m x a b u v : Nat) : Prop where
  a_pos : 0 < a
  b_pos : 0 < b
  coprime : a.Coprime b
  u_lt : u < m
  v_lt : v < m
  mul_u : (x * u : ZMod m) = a
  mul_v : (x * v : ZMod m) = b

section Turns

variable {m x a b u v : Nat}

theorem EuclidInvariant.swap (h : EuclidInvariant m x a b u v) : EuclidInvariant m x b a v u :=
  ⟨h.b_pos, h.a_pos, h.coprime.symm, h.v_lt, h.u_lt, h.mul_v, h.mul_u⟩

/-- Halving an even a, with u halved mod m. -/
theorem EuclidInvariant.halve (hm : m % 2 = 1) (h : EuclidInvariant m x a b u v) (ha : a % 2 = 0) :
    EuclidInvariant m x (a / 2) b (half m u) v where
  a_pos := by
    have := h.a_pos
    omega
  b_pos := h.b_pos
  coprime := h.coprime.coprime_dvd_left (Nat.div_dvd_of_dvd (Nat.dvd_of_mod_eq_zero ha))
  u_lt := half_lt m u h.u_lt
  v_lt := h.v_lt
  mul_u := by
    have heven : (a : ZMod m) = 2 * (a / 2 : Nat) := by
      exact_mod_cast congrArg Nat.cast (Nat.mul_div_cancel' (Nat.dvd_of_mod_eq_zero ha)).symm
    apply (isUnit_two hm).mul_left_cancel
    rw [mul_left_comm, two_mul_cast_half hm, h.mul_u, heven]
  mul_v := h.mul_v

/-- Subtracting b from a larger a, with v subtracted from u mod m. -/
theorem EuclidInvariant.subtract (h : EuclidInvariant m x a b u v) (hba : b < a) :
    EuclidInvariant m x (a - b) b (modSub m u v) v where
  a_pos := Nat.sub_pos_of_lt hba
  b_pos := h.b_pos
  coprime := (Nat.coprime_sub_self_left hba.le).2 h.coprime
  u_lt := modSub_lt h.u_lt h.v_lt
  v_lt := h.v_lt
  mul_u := by rw [cast_modSub h.u_lt h.v_lt, mul_sub, h.mul_u, h.mul_v, Nat.cast_sub hba.le]
  mul_v := h.mul_v

/-- The loop starts from x, m, 1 and 0. -/
theorem EuclidInvariant.start (hx : 0 < x) (hxm : x < m) (hcoprime : x.Coprime m) : EuclidInvariant m x x m 1 0 where
  a_pos := hx
  b_pos := hx.trans hxm
  coprime := hcoprime
  u_lt := Nat.lt_of_le_of_lt hx hxm
  v_lt := hx.trans hxm
  mul_u := by simp
  mul_v := by simp

/-- The loop stops where a = b, and coprime equals are 1. -/
theorem EuclidInvariant.mul_u_of_eq (h : EuclidInvariant m x a b u v) (hab : a = b) : (x * u : ZMod m) = 1 := by
  obtain rfl : a = 1 := (Nat.coprime_self a).1 (by simpa [← hab] using h.coprime)
  simpa using h.mul_u

/-- Each turn halves one of a and b, so their product, which stays positive, halves too. -/
theorem mul_lt_two_pow_of_halved {c fuel : Nat} (hab : a * b < 2 ^ (fuel + 1)) (hc : 2 * c ≤ a) : c * b < 2 ^ fuel := by
  have := Nat.mul_le_mul_right b hc
  rw [mul_assoc] at this
  omega

theorem mul_lt_two_pow_of_halved_right {c fuel : Nat} (hab : a * b < 2 ^ (fuel + 1)) (hc : 2 * c ≤ b) :
    a * c < 2 ^ fuel := by
  rw [mul_comm] at hab ⊢
  exact mul_lt_two_pow_of_halved hab hc

end Turns

/-! ### The loop and its result -/

/-- With a turn for each bit of a·b, the loop ends at an inverse of x. -/
theorem binInvLoop_inverts {m x : Nat} (hm : m % 2 = 1) (fuel : Nat) :
    ∀ {a b u v : Nat}, EuclidInvariant m x a b u v → a * b < 2 ^ fuel →
      binInvLoop m fuel a b u v < m ∧ (x * binInvLoop m fuel a b u v : ZMod m) = 1 := by
  induction fuel with
  | zero =>
    intro a b u v h hfuel
    have := Nat.mul_pos h.a_pos h.b_pos
    omega
  | succ fuel ih =>
    intro a b u v h hfuel
    rw [binInvLoop]
    split_ifs with heq haeven hbeven hlt
    · exact ⟨h.u_lt, h.mul_u_of_eq heq⟩
    · exact ih (h.halve hm haeven) (mul_lt_two_pow_of_halved hfuel (by omega))
    · exact ih (h.swap.halve hm hbeven).swap (mul_lt_two_pow_of_halved_right hfuel (by omega))
    · exact ih ((h.subtract hlt).halve hm (by omega)) (mul_lt_two_pow_of_halved hfuel (by omega))
    · exact ih ((h.swap.subtract (by omega)).halve hm (by omega)).swap (mul_lt_two_pow_of_halved_right hfuel (by omega))

/-- `BinInv` inverts every nonzero residue coprime to an odd 384-bit m (R140). -/
theorem binInv_inverts {m x : Nat} (hm : m % 2 = 1) (hbits : m < 2 ^ 384) (hx : x ≠ 0) (hxm : x < m)
    (hcoprime : x.Coprime m) : binInv x m < m ∧ (x * binInv x m : ZMod m) = 1 := by
  rw [binInv, if_neg hx]
  refine binInvLoop_inverts hm 768 (.start (Nat.pos_of_ne_zero hx) hxm hcoprime) ?_
  exact Nat.mul_lt_mul'' (c := 2 ^ 384) (d := 2 ^ 384) (hxm.trans hbits) hbits

/-- `finv` is the inverse of Z/p, with 0 for 0 (R140). -/
@[simp] theorem cast_finv (a : Nat) : ((finv a : Nat) : ZMod fieldPrime) = (a : ZMod fieldPrime)⁻¹ := by
  rw [← ZMod.natCast_mod a fieldPrime, finv]
  by_cases hzero : a % fieldPrime = 0
  · rw [hzero, binInv, if_pos rfl, Nat.cast_zero, ZMod.inv_zero]
  · have hlt : a % fieldPrime < fieldPrime := Nat.mod_lt a fieldPrime_pos
    have hcoprime : (a % fieldPrime).Coprime fieldPrime :=
      (Nat.coprime_of_lt_prime hzero hlt fieldPrime_prime).symm
    obtain ⟨-, hinv⟩ := binInv_inverts (modulusValue_odd .p) fieldPrime_lt hzero hlt hcoprime
    exact (ZMod.inv_eq_of_mul_eq_one _ _ _ hinv).symm

end Sys2Proof.Machine

/-! # The model's points are Mathlib's group of the curve (R16) -/

namespace Sys2Proof.Machine

set_option exponentiation.threshold 1000

/-! ### The curve over Z/p -/

/-- E as a Weierstrass curve over Z/p: y² = x³ − 3x + b (R16). -/
noncomputable def curve : WeierstrassCurve.Affine (ZMod fieldPrime) where
  a₁ := 0
  a₂ := 0
  a₃ := 0
  a₄ := -3
  a₆ := curveB

theorem curve_equation_iff (x y : ZMod fieldPrime) : curve.Equation x y ↔ y ^ 2 = x ^ 3 + curveB - 3 * x := by
  have hrhs : x ^ 3 + -(3 * x) + (curveB : ZMod fieldPrime) = x ^ 3 + curveB - 3 * x := by ring
  simp [WeierstrassCurve.Affine.equation_iff, curve, hrhs]

theorem curve_negY (x y : ZMod fieldPrime) : curve.negY x y = -y := by simp [WeierstrassCurve.Affine.negY, curve]

theorem curve_addX (x1 x2 slope : ZMod fieldPrime) : curve.addX x1 x2 slope = slope ^ 2 - x1 - x2 := by
  simp [WeierstrassCurve.Affine.addX, curve]

theorem curve_addY (x1 x2 y1 slope : ZMod fieldPrime) :
    curve.addY x1 x2 y1 slope = slope * (x1 - (slope ^ 2 - x1 - x2)) - y1 := by
  rw [WeierstrassCurve.Affine.addY, curve_negY, WeierstrassCurve.Affine.negAddY, curve_addX]
  ring

theorem onCurve_iff_equation (x y : Nat) : onCurve x y = true ↔ curve.Equation x y := by
  rw [curve_equation_iff, onCurve, beq_iff_eq, ← cast_curveRhs, ← cast_fsqr]
  exact ⟨congrArg Nat.cast, eq_of_cast_eq (fsqr_lt y) (curveRhs_lt x)⟩

/-- The curve equation on integers is the model's test for it (R16). -/
theorem curveEquation_iff_onCurve (x y : Nat) : curveEquation x y ↔ onCurve x y = true := by
  have hthree : ((fieldPrime - 3 : Nat) : ZMod fieldPrime) = -3 := by
    rw [Nat.cast_sub (by decide), ZMod.natCast_self, zero_sub, Nat.cast_ofNat]
  rw [onCurve_iff_equation, curve_equation_iff, curveEquation, ← Nat.ModEq, ← ZMod.natCast_eq_natCast_iff]
  push_cast
  rw [hthree, neg_mul, ← sub_eq_add_neg, sub_add_eq_add_sub]

/-- A reduced value is the representative of its class. -/
theorem eq_val_of_cast_eq {a : Nat} (ha : a < fieldPrime) {x : ZMod fieldPrime} (h : (a : ZMod fieldPrime) = x) :
    a = x.val := by
  rw [← h, ZMod.val_cast_of_lt ha]

/-- The model's point for an element of Mathlib's group of the curve. -/
def Point.ofGroup : WeierstrassCurve.Affine.Point curve → Point
  | .zero => .infinity
  | .some x y _ => .affine x.val y.val

theorem Point.ofGroup_zero : Point.ofGroup 0 = .infinity := rfl

/-- One bit of the binary expansion of k. -/
theorem Point.mulLoop_succ (P : Point) (fuel k : Nat) :
    P.mulLoop (fuel + 1) k =
      if k = 0 then .infinity
      else if k % 2 = 1 then ((P.mulLoop fuel (k / 2)).add (P.mulLoop fuel (k / 2))).add P
      else (P.mulLoop fuel (k / 2)).add (P.mulLoop fuel (k / 2)) := rfl

section Group

variable [Fact fieldPrime.Prime]

theorem two_ne_zero_mod_fieldPrime : (2 : ZMod fieldPrime) ≠ 0 :=
  (isUnit_two (m := fieldPrime) (modulusValue_odd .p)).ne_zero

/-- No point of E has y = 0, so E is smooth at all of them (R13). -/
theorem curve_nonsingular_of_equation {x y : ZMod fieldPrime} (h : curve.Equation x y) : curve.Nonsingular x y := by
  have hy : y ≠ 0 := by
    rintro rfl
    have hroot := (curve_equation_iff x 0).1 h
    exact cubic_ne_zero x (by simpa using hroot.symm)
  refine (WeierstrassCurve.Affine.nonsingular_iff' x y).2 ⟨h, .inr ?_⟩
  simpa [curve, two_ne_zero_mod_fieldPrime] using hy

/-- Every point of E, and O, comes from the group. -/
theorem Point.exists_ofGroup_of_onE {P : Point} (h : P.onE) : ∃ Q, Point.ofGroup Q = P := by
  cases P with
  | infinity => exact ⟨0, Point.ofGroup_zero⟩
  | affine x y =>
    obtain ⟨hx, hy, hcurve⟩ := h
    refine ⟨.some x y (curve_nonsingular_of_equation ((onCurve_iff_equation x y).1 hcurve)), ?_⟩
    rw [Point.ofGroup, ZMod.val_cast_of_lt hx, ZMod.val_cast_of_lt hy]

theorem Point.ofGroup_onE (Q : WeierstrassCurve.Affine.Point curve) : (Point.ofGroup Q).onE := by
  cases Q with
  | zero => trivial
  | some x y h =>
    refine ⟨x.val_lt, y.val_lt, (onCurve_iff_equation _ _).2 ?_⟩
    rw [ZMod.natCast_zmod_val, ZMod.natCast_zmod_val]
    exact h.1

/-! ### Addition (R16) -/

variable {x1 y1 x2 y2 : ZMod fieldPrime}

theorem fadd_eq_zero_iff {a b : Nat} : fadd a b = 0 ↔ (a : ZMod fieldPrime) = -b := by
  rw [fadd, ← Nat.dvd_iff_mod_eq_zero, ← ZMod.natCast_eq_zero_iff, Nat.cast_add, add_eq_zero_iff_eq_neg]

/-- The third point of a line of slope `l`, reflected. -/
theorem chordPoint_eq {l : Nat} {slope : ZMod fieldPrime} (hl : (l : ZMod fieldPrime) = slope) :
    chordPoint l x1.val y1.val x2.val = .affine (curve.addX x1 x2 slope).val (curve.addY x1 x2 y1 slope).val := by
  rw [chordPoint, curve_addY, curve_addX]
  congr 1
  · refine eq_val_of_cast_eq (fsub_lt _ _) ?_
    simp [hl]
  · refine eq_val_of_cast_eq (fsub_lt _ _) ?_
    simp [hl]

/-- The slope of the tangent at a point whose y is not its own negative. -/
theorem cast_tangentSlope (hx : x1 = x2) (hy : y1 ≠ curve.negY x2 y2) :
    (fmul (fsub (fmul 3 (fsqr x1.val)) 3) (finv (fmul 2 y1.val)) : ZMod fieldPrime) = curve.slope x1 x2 y1 y2 := by
  have hnum : 3 * x1 ^ 2 + 2 * curve.a₂ * x1 + curve.a₄ - curve.a₁ * y1 = 3 * x1 ^ 2 - 3 := by
    simp only [curve]
    ring
  have hden : y1 - -y1 = 2 * y1 := by ring
  rw [WeierstrassCurve.Affine.slope_of_Y_ne hx hy, curve_negY, hnum, hden, div_eq_mul_inv]
  simp only [cast_fmul, cast_fsub, cast_fsqr, cast_finv, Nat.cast_ofNat, ZMod.natCast_zmod_val]

/-- The slope of the chord through two points of different x. -/
theorem cast_chordSlope (hx : x1 ≠ x2) :
    (fmul (fsub y2.val y1.val) (finv (fsub x2.val x1.val)) : ZMod fieldPrime) = curve.slope x1 x2 y1 y2 := by
  rw [WeierstrassCurve.Affine.slope_of_X_ne hx, ← neg_div_neg_eq, neg_sub, neg_sub, div_eq_mul_inv]
  simp

theorem fadd_val_eq_zero_iff_negY : fadd y1.val y2.val = 0 ↔ y1 = curve.negY x2 y2 := by
  rw [fadd_eq_zero_iff, ZMod.natCast_zmod_val, ZMod.natCast_zmod_val, curve_negY]

/-- The model's addition is the group's. -/
theorem Point.ofGroup_add (P Q : WeierstrassCurve.Affine.Point curve) :
    Point.ofGroup (P + Q) = (Point.ofGroup P).add (Point.ofGroup Q) := by
  match P, Q with
  | .zero, Q => exact congrArg Point.ofGroup (zero_add Q)
  | .some x1 y1 h1, .zero => rfl
  | .some x1 y1 h1, .some x2 y2 h2 =>
    rw [Point.ofGroup, Point.ofGroup, Point.add]
    by_cases hx : x1 = x2
    · rw [if_pos (congrArg ZMod.val hx)]
      by_cases hy : y1 = curve.negY x2 y2
      · rw [if_pos (fadd_val_eq_zero_iff_negY.2 hy), WeierstrassCurve.Affine.Point.add_of_Y_eq hx hy,
          Point.ofGroup_zero]
      · rw [if_neg (mt fadd_val_eq_zero_iff_negY.1 hy), WeierstrassCurve.Affine.Point.add_of_Y_ne hy, Point.ofGroup,
          chordPoint_eq (cast_tangentSlope hx hy)]
    · rw [if_neg (mt (fun h => ZMod.val_injective _ h) hx), WeierstrassCurve.Affine.Point.add_of_X_ne hx, Point.ofGroup,
        chordPoint_eq (cast_chordSlope hx)]

/-! ### Multiples (R16) -/

theorem Point.repeated_ofGroup (P : WeierstrassCurve.Affine.Point curve) (k : Nat) :
    (Point.ofGroup P).repeated k = Point.ofGroup (k • P) := by
  induction k with
  | zero => rw [Point.repeated, zero_nsmul, Point.ofGroup_zero]
  | succ k ih => rw [Point.repeated, ih, succ_nsmul, Point.ofGroup_add]

/-- The binary expansion of k in the group (R16). -/
theorem Point.mulLoop_ofGroup (P : WeierstrassCurve.Affine.Point curve) (fuel : Nat) :
    ∀ {k : Nat}, k < 2 ^ fuel → (Point.ofGroup P).mulLoop fuel k = Point.ofGroup (k • P) := by
  induction fuel with
  | zero =>
    intro k hk
    obtain rfl : k = 0 := by omega
    rw [Point.mulLoop, zero_nsmul, Point.ofGroup_zero]
  | succ fuel ih =>
    intro k hk
    rw [Point.mulLoop_succ, ih (by omega), ← Point.ofGroup_add, ← add_nsmul]
    split_ifs with hzero hodd
    · rw [hzero, zero_nsmul, Point.ofGroup_zero]
    · rw [← Point.ofGroup_add, ← succ_nsmul, show k / 2 + k / 2 + 1 = k by omega]
    · rw [show k / 2 + k / 2 = k by omega]

end Group

/-- `[k]P` as the commands compute it is the k-fold sum of P (R16). -/
theorem Point.mul_eq_repeated {P : Point} (hP : P.onE) {k : Nat} (hk : k < 2 ^ 384) : Point.mul k P = P.repeated k := by
  have := Fact.mk fieldPrime_prime
  obtain ⟨Q, rfl⟩ := Point.exists_ofGroup_of_onE hP
  rw [Point.mul, Point.mulLoop_ofGroup Q 384 hk, Point.repeated_ofGroup]

/-- The multiples of a point of E are on E. -/
theorem Point.repeated_onE {P : Point} (hP : P.onE) (k : Nat) : (P.repeated k).onE := by
  have := Fact.mk fieldPrime_prime
  obtain ⟨Q, rfl⟩ := Point.exists_ofGroup_of_onE hP
  rw [Point.repeated_ofGroup]
  exact Point.ofGroup_onE (k • Q)

end Sys2Proof.Machine

/-! # Scalar multiplication: SMUL -/

namespace Sys2Proof

/-! ### The words of SMUL (R85, R88) -/

theorem smul_wellFormed_iff {rd ra : Reg} :
    (groupFits 2 rd && groupFits 2 ra) = true ↔ rd.toNat ≤ 14 ∧ ra.toNat ≤ 14 := by
  rw [Bool.and_eq_true, groupFits_two_iff, groupFits_two_iff]

/-- A row that does not use RC refuses a nonzero RC (R88). -/
theorem checked_of_unused_rc {u : Uses} {w : Word64} (hu : u.rc = false) (hrc : fieldRc w ≠ 0) (i : Instr) :
    checked u w i = .error .illegalOperand := by
  have hzero : (fieldRc w == 0) = false := beq_false_of_ne hrc
  rw [checked, unusedZero, hu, hzero]
  simp

/-- Without ZR, SMUL does not use RC (R85). -/
theorem decode_smul_of_rc (rd ra rb : Reg) {rc : Reg} (hrc : rc ≠ 0) :
    decode (assemble 0x39 (rd := rd) (ra := ra) (rb := rb) (rc := rc)) = .error .illegalOperand := by
  have hop := fieldOp_assemble 0x39 rd ra rb rc 0 0 0 (by decide) (by decide) (by decide)
  have hzr := fieldZr_assemble 0x39 rd ra rb rc 0 0 0 (by decide) (by decide) (by decide)
  have hfield := fieldRc_assemble 0x39 rd ra rb rc 0 0 0 (by decide) (by decide) (by decide)
  simp only [decode, hop, hzr, if_pos]
  exact checked_of_unused_rc rfl (hfield.symm ▸ hrc) _

end Sys2Proof

namespace Sys2Proof.Machine

/-! ### The point SMUL reads and the point it writes (R16, R184) -/

theorem Point.coords_reduced {P : Point} (hP : P.onE) : CoordsReduced P.coords := by
  cases P with
  | infinity => exact ⟨fieldPrime_pos, fieldPrime_pos⟩
  | affine x y =>
    obtain ⟨hx, hy, -⟩ := hP
    exact ⟨hx, hy⟩

theorem Point.infinity_repeated (k : Nat) : Point.infinity.repeated k = .infinity := by
  induction k with
  | zero => rfl
  | succ k ih => rw [Point.repeated, ih, Point.add]

section Multiples

variable {x y : Nat} (hx : x < fieldPrime) (hy : y < fieldPrime)
  (hpoint : (x = 0 ∧ y = 0) ∨ onCurve x y = true)

include hx hy hpoint

theorem Point.ofCoords_onE : (Point.ofCoords x y).onE := by
  rw [Point.ofCoords]
  split_ifs with hzero
  · trivial
  · exact ⟨hx, hy, hpoint.resolve_left hzero⟩

/-- SMUL's result is the k-fold sum of the point its pair encodes. -/
theorem smulResult_eq {k : Nat} (hk : k < 2 ^ 384) :
    smulResult k x y = ((Point.ofCoords x y).repeated k).coords := by
  rw [smulResult]
  split_ifs with htrivial
  · obtain hzero | rfl := htrivial
    · rw [Point.ofCoords, if_pos hzero, Point.infinity_repeated, Point.coords]
    · rw [Point.repeated, Point.coords]
  · obtain ⟨hzero, -⟩ := not_or.1 htrivial
    have hE := Point.ofCoords_onE hx hy hpoint
    rw [Point.ofCoords, if_neg hzero] at hE ⊢
    rw [Point.mul_eq_repeated hE hk]

end Multiples

/-! ### What running SMUL answers -/

/-- The initial Z of SMUL: 1 without ZR, else the value of RC (R184). -/
def State.initialZ (s : State) : Option Reg → Nat
  | none => 1
  | some rc => s.src rc

section Answers

variable {rd ra : Reg} (h : rd.toNat ≤ 14 ∧ ra.toNat ≤ 14) (rb : Reg) (z : Option Reg) (s : State)

include h

theorem exec_smul_eq :
    exec (.smul rd ra rb z) s = reduced fieldPrime [s.srcAt ra 0, s.srcAt ra 1, s.initialZ z] s
      (if s.initialZ z = 0 then raise .range 0 s
       else if ¬(s.srcAt ra 0 = 0 ∧ s.srcAt ra 1 = 0) ∧ ¬onCurve (s.srcAt ra 0) (s.srcAt ra 1) then raise .malformed 0 s
       else succeed 0 (s.dstPair rd (smulResult (s.src rb) (s.srcAt ra 0) (s.srcAt ra 1)))) := by
  cases z with
  | none => exact guarded_of_wellFormed (i := .smul rd ra rb none) (smul_wellFormed_iff.2 h) s _
  | some rc => exact guarded_of_wellFormed (i := .smul rd ra rb (some rc)) (smul_wellFormed_iff.2 h) s _

/-- A source that is not reduced, or an initial Z of 0, is RANGE. -/
theorem smul_fails_range (hbad : fieldPrime ≤ s.srcAt ra 0 ∨ fieldPrime ≤ s.srcAt ra 1 ∨ s.initialZ z = 0 ∨
    fieldPrime ≤ s.initialZ z) : s.Fails (.smul rd ra rb z) .range 0 := by
  have hexec := exec_smul_eq h rb z s
  by_cases hzero : s.initialZ z = 0
  · rw [if_pos hzero, raise_eq] at hexec
    -- both the range check and the test for 0 raise RANGE
    have hnext : exec (.smul rd ra rb z) s = .next (s.complete .range 0) := by
      rw [hexec, reduced, raise_eq, ite_self]
    exact ⟨_, hnext, s.failsTo_complete .range 0 (by decide)⟩
  · exact State.fails_of_exec_eq_reduced hexec (by simpa [hzero] using hbad)

variable (hx : s.srcAt ra 0 < fieldPrime) (hy : s.srcAt ra 1 < fieldPrime) (hne : s.initialZ z ≠ 0)
  (hz : s.initialZ z < fieldPrime)

include hx hy hne hz

/-- Past the range checks, only the point is left to test. -/
theorem exec_smul_of_reduced :
    exec (.smul rd ra rb z) s =
      if ¬(s.srcAt ra 0 = 0 ∧ s.srcAt ra 1 = 0) ∧ ¬onCurve (s.srcAt ra 0) (s.srcAt ra 1) then raise .malformed 0 s
      else succeed 0 (s.dstPair rd (smulResult (s.src rb) (s.srcAt ra 0) (s.srcAt ra 1))) := by
  rw [exec_smul_eq h rb z s, reduced_of_lt (by simp [hx, hy, hz]), if_neg hne]

theorem smul_fails_malformed (hzero : ¬(s.srcAt ra 0 = 0 ∧ s.srcAt ra 1 = 0))
    (hoff : ¬onCurve (s.srcAt ra 0) (s.srcAt ra 1)) : s.Fails (.smul rd ra rb z) .malformed 0 := by
  have hexec := exec_smul_of_reduced h rb z s hx hy hne hz
  rw [if_pos ⟨hzero, hoff⟩, raise_eq] at hexec
  exact ⟨_, hexec, s.failsTo_complete .malformed 0 (by decide)⟩

/-- SMUL of a point of E, or of (0, 0), leaves its multiple in the destination pair. -/
theorem exec_smul_of_point
    (hpoint : (s.srcAt ra 0 = 0 ∧ s.srcAt ra 1 = 0) ∨ onCurve (s.srcAt ra 0) (s.srcAt ra 1) = true) :
    ∃ t, exec (.smul rd ra rb z) s = .next t ∧ s.Succeeds t [rd.toNat, rd.toNat + 1] ∧ t.flags = s.flags ∧
      t.srcPair rd = ((Point.ofCoords (s.srcAt ra 0) (s.srcAt ra 1)).repeated (s.src rb)).coords := by
  have hexec := exec_smul_of_reduced h rb z s hx hy hne hz
  have hE := Point.repeated_onE (Point.ofCoords_onE hx hy hpoint) (s.src rb)
  rw [if_neg fun ⟨hzero, hoff⟩ => hoff (hpoint.resolve_left hzero), smulResult_eq hx hy hpoint (s.src_lt rb)] at hexec
  refine ⟨_, hexec, s.succeeds_dstPair rd _, by simp, ?_⟩
  rw [State.srcPair_complete, s.srcPair_dstPair_same rd h.1 (Point.coords_reduced hE)]

end Answers

/-! ### The claim -/

/-- Settles O44. The model's double-and-add is the k-fold sum because its addition is that of Mathlib's group of the
curve, where sums may be regrouped. -/
theorem smulIsTheGroupMultiple : Obligations.SmulIsTheGroupMultiple := by
  refine ⟨fun rd ra rb rc hrc => decode_smul_of_rc rd ra rb hrc, fun rd ra rb z s => ?_⟩
  intro x y z0 word legal
  have hz0 : z0 = s.initialZ z := by cases z <;> rfl
  have hword : word = encode (.smul rd ra rb z) := by cases z <;> rfl
  rw [hz0, hword, curveEquation_iff_onCurve]
  refine ⟨decode_encode_of_iff (i := .smul rd ra rb z) smul_wellFormed_iff, fun h =>
    ⟨smul_fails_range h rb z s, fun hx hy hne hz => ⟨smul_fails_malformed h rb z s hx hy hne hz,
      exec_smul_of_point h rb z s hx hy hne hz⟩⟩⟩

end Sys2Proof.Machine

/-! # Constants and byte strings: LDC, LOADB, STOREB and PCOMP -/

namespace Sys2Proof

/-- A command on a register pair and a BUF offset passes the operand checks where the pair fits V0..V15 and the
immediate is in range (R81, R83). -/
theorem pairAndImm_wellFormed_iff {r : Reg} {hi : Nat} {imm : Imm} :
    (groupFits 2 r && immAtMost hi imm) = true ↔ r.toNat ≤ 14 ∧ imm.toNat ≤ hi := by
  rw [Bool.and_eq_true, groupFits_two_iff, immAtMost_iff]

end Sys2Proof

namespace Sys2Proof.Machine

set_option exponentiation.threshold 1000

/-! ### The constant store (R200) -/

/-- Every entry of the constant store fits a register. -/
theorem constantStore_lt : ∀ k < 8, constantStore k < 2 ^ 384 := by decide +kernel

/-! ### The bytes of a big-endian string (R15) -/

section Bytes

/-- In a big-endian string the last byte is least significant: byte `k` has weight 2^(8(length − 1 − k)). -/
theorem be_byte (str : List Byte) (k : Nat) (hk : k < str.length) :
    be str / 2 ^ (8 * (str.length - 1 - k)) % 2 ^ 8 = str[k].toNat := by
  have hlane := be_reverse_lane str.reverse (str.length - 1 - k) (by rw [List.length_reverse]; omega)
  have hindex : str.length - 1 - (str.length - 1 - k) = k := by omega
  simpa only [List.reverse_reverse, List.getElem_reverse, hindex] using hlane

/-- Byte `k` of the 48-byte string of a value (R15). -/
theorem be48_getElem (v k : Nat) (hk : k < (be48 v).length) :
    (be48 v)[k].toNat = v / 2 ^ (8 * (47 - k)) % 2 ^ 8 := by
  have hweight : 256 ^ (47 - k) = 2 ^ (8 * (47 - k)) := (pow_mul 2 8 (47 - k)).symm
  simp only [be48, beBytes, List.getElem_map, List.getElem_range, BitVec.toNat_ofNat, Nat.reduceSub, hweight]

/-- The integer LOADB reads has the byte at `off + k` of BUF as its byte `k` (R202). -/
theorem State.bufInt_byte (s : State) (off : Nat) {k : Nat} (hk : k < 48) :
    s.bufInt off / 2 ^ (8 * (47 - k)) % 2 ^ 8 = (s.buf.read (off + k)).toNat := by
  have hbyte := be_byte (s.buf.readString off 48) k (by rwa [readString_length])
  simpa [State.bufInt, Memory.readString] using hbyte

/-- The 48-byte string of a value, written inside BUF, puts byte `k` of the value at `off + k` (R203). -/
theorem Memory.read_writeString_be48 {m : Memory} (hwf : m.wf = true) {off : Nat} (hoff : off ≤ 464) (v : Nat)
    {k : Nat} (hk : k < 48) :
    ((m.writeString off (be48 v)).read (off + k)).toNat = v / 2 ^ (8 * (47 - k)) % 2 ^ 8 := by
  have hlength : k < (be48 v).length := by rwa [be48_length]
  have hfits : off + (be48 v).length ≤ bufSize := by
    rw [be48_length]
    exact Nat.add_le_add_right hoff 48
  rw [Memory.read_writeString_inside hwf off k _ hlength hfits, be48_getElem v k hlength]

theorem parityPrefix_toNat (y : Nat) : (parityPrefix y).toNat = 0x02 + y % 2 := by
  rw [parityPrefix, BitVec.toNat_ofNat]
  omega

end Bytes

/-! ### The frame of a command that writes BUF (R35, R36) -/

theorem State.completesTo_writeBuf (s : State) (off : Nat) (str : List Byte) :
    s.CompletesTo ((s.writeBuf off str).complete .ok 0) .ok 0 :=
  State.completesTo_complete .ok 0 (by decide) rfl rfl rfl rfl rfl rfl rfl

/-! ### What running each command answers -/

section Answers

variable (rd ra : Reg) (imm : Imm) (s : State)

theorem exec_ldc (h : imm.toNat ≤ 7) :
    exec (.ldc rd imm) s = .next ((s.dst rd (constantStore imm.toNat)).complete .ok 0) :=
  guarded_of_wellFormed (i := .ldc rd imm) (immAtMost_iff.2 h) s _

theorem exec_loadb (h : imm.toNat ≤ 464) :
    exec (.loadb rd imm) s = .next ((s.dst rd (s.bufInt imm.toNat)).complete .ok 0) :=
  guarded_of_wellFormed (i := .loadb rd imm) (immAtMost_iff.2 h) s _

theorem exec_storeb (h : imm.toNat ≤ 464) :
    exec (.storeb ra imm) s = .next ((s.writeBuf imm.toNat (be48 (s.src ra))).complete .ok 0) :=
  guarded_of_wellFormed (i := .storeb ra imm) (immAtMost_iff.2 h) s _

theorem exec_pcomp (h : ra.toNat ≤ 14 ∧ imm.toNat ≤ 463) :
    exec (.pcomp ra imm) s = .next
      ((s.writeBuf imm.toNat (parityPrefix (s.srcAt ra 1) :: be48 (s.srcAt ra 0))).complete .ok 0) :=
  guarded_of_wellFormed (i := .pcomp ra imm) (pairAndImm_wellFormed_iff.2 h) s _

end Answers

/-! ### The claims -/

/-- Settles O45. The values R12 prints are the entries of the model's store, and each fits the destination. -/
theorem ldcWritesTheConstant : Obligations.LdcWritesTheConstant := by
  intro rd imm s
  refine ⟨decode_encode_of_iff (i := .ldc rd imm) immAtMost_iff, fun h =>
    ⟨_, exec_ldc rd imm s h, s.succeeds_dst rd _, by simp, ?_⟩⟩
  have hindex : imm.toNat < 8 := Nat.lt_succ_of_le h
  rw [State.src_complete, s.src_dst_of_lt rd (constantStore_lt _ hindex)]
  calc
    _ = ((List.range 8).map constantStore)[imm.toNat]? := congrArg (·[imm.toNat]?) (by decide +kernel)
    _ = some (constantStore imm.toNat) := by simp [hindex]

/-- Settles O46. LOADB's integer is read off byte by byte, and STOREB's string puts the same bytes back in BUF. -/
theorem loadAndStoreBytes : Obligations.LoadAndStoreBytes := by
  refine ⟨fun rd imm s => ⟨decode_encode_of_iff (i := .loadb rd imm) immAtMost_iff, fun h => ?loadb⟩,
    fun ra imm s => ⟨decode_encode_of_iff (i := .storeb ra imm) immAtMost_iff, fun h hwf => ?storeb⟩⟩
  case loadb =>
    refine ⟨_, exec_loadb rd imm s h, s.succeeds_dst rd _, by simp, fun k hk => ?_⟩
    have hfits : s.bufInt imm.toNat < 2 ^ 384 := s.bufInt_lt imm.toNat
    rw [State.src_complete, s.src_dst_of_lt rd hfits, s.bufInt_byte _ hk]
  case storeb =>
    refine ⟨_, exec_storeb ra imm s h, s.completesTo_writeBuf _ _, fun _ _ _ => rfl, rfl, ?_,
      fun k hk => Memory.read_writeString_be48 hwf h (s.src ra) hk⟩
    rw [← be48_length (s.src ra)]
    exact State.keepsBufOutside_of_buf_eq hwf rfl

/-- Settles O47. The parity byte of y is one write at the offset; the 48 bytes of x start one offset above it, as a
STOREB there would write them. -/
theorem pcompWritesPrefixAndX : Obligations.PcompWritesPrefixAndX := by
  intro ra imm s legal
  refine ⟨decode_encode_of_iff (i := .pcomp ra imm) pairAndImm_wellFormed_iff, fun ⟨hra, himm⟩ hwf =>
    ⟨_, exec_pcomp ra imm s ⟨hra, himm⟩, s.completesTo_writeBuf _ _, fun _ _ _ => rfl, rfl, ?frame, ?prefixByte,
      fun k hk => ?xBytes⟩⟩
  case frame =>
    have hlength : (parityPrefix (s.srcAt ra 1) :: be48 (s.srcAt ra 0)).length = 49 := by
      rw [List.length_cons, be48_length]
    rw [← hlength]
    exact State.keepsBufOutside_of_buf_eq hwf rfl
  case prefixByte =>
    have hin : imm.toNat < bufSize := Nat.lt_of_le_of_lt himm (by decide)
    rw [State.complete_buf, State.writeBuf_buf, Memory.writeString,
      Memory.read_writeString_outside (Memory.wf_write hwf _ _) _ _ _ (.inl (Nat.lt_succ_self _)),
      Memory.read_write_same hwf _ _ hin, parityPrefix_toNat]
  case xBytes =>
    exact Memory.read_writeString_be48 (Memory.wf_write hwf _ _) (Nat.succ_le_succ himm) (s.srcAt ra 0) hk

end Sys2Proof.Machine

/-! # The order of the group of the curve (R13) -/

namespace Sys2Proof.Machine

set_option exponentiation.threshold 1000

/-! ### Jacobian triples and the affine addition (R162, R166) -/

section Formulas

variable {x y z : Nat}

theorem cast_ne_zero_of_fmul_ne_zero {a b : Nat} (h : fmul a b ≠ 0) :
    (a : ZMod fieldPrime) ≠ 0 ∧ (b : ZMod fieldPrime) ≠ 0 := by
  have hcast : (fmul a b : ZMod fieldPrime) ≠ 0 := fun h0 =>
    h (eq_of_cast_eq (fmul_lt a b) fieldPrime_pos (by rw [h0, Nat.cast_zero]))
  rw [cast_fmul] at hcast
  exact ⟨left_ne_zero_of_mul hcast, right_ne_zero_of_mul hcast⟩

theorem ne_zero_of_cast_ne_zero {a : Nat} (h : (a : ZMod fieldPrime) ≠ 0) : a ≠ 0 := by
  rintro rfl
  exact h Nat.cast_zero

theorem jacobianPoint_of_ne_zero (hz : z ≠ 0) :
    jacobianPoint x y z = .affine (fmul x (finv (fsqr z))) (fmul y (finv (fmul (fsqr z) z))) := if_neg hz

/-- The doubled triple stands for the doubled point, unless its Z is 0 (R162). -/
theorem jacobianPoint_jacobianDouble (h : fmul y z ≠ 0) :
    jacobianPoint (jacobianDouble x y z).1 (jacobianDouble x y z).2.1 (jacobianDouble x y z).2.2 =
      (jacobianPoint x y z).add (jacobianPoint x y z) := by
  have := Fact.mk fieldPrime_prime
  have htwo := two_ne_zero_mod_fieldPrime
  have hhalf (t : Nat) : (fhalf t : ZMod fieldPrime) = t / 2 := by
    rw [eq_div_iff htwo, mul_comm, two_mul_cast_fhalf]
  obtain ⟨hy, hz⟩ := cast_ne_zero_of_fmul_ne_zero h
  have hsum : fadd (fmul y (finv (fmul (fsqr z) z))) (fmul y (finv (fmul (fsqr z) z))) ≠ 0 := by
    rw [Ne, fadd_eq_zero_iff, eq_neg_iff_add_eq_zero, ← two_mul]
    simp [htwo, hy, hz]
  rw [jacobianPoint_of_ne_zero (ne_zero_of_cast_ne_zero hz), jacobianDouble, jacobianPoint_of_ne_zero h, Point.add,
    if_pos rfl, if_neg hsum, chordPoint]
  congr 1
  · refine eq_of_cast_eq (fmul_lt _ _) (fsub_lt _ _) ?_
    simp only [cast_fsub, cast_fadd, cast_fmul, cast_fsqr, cast_finv, hhalf, Nat.cast_ofNat]
    field_simp
    ring
  · refine eq_of_cast_eq (fmul_lt _ _) (fsub_lt _ _) ?_
    simp only [cast_fsub, cast_fadd, cast_fmul, cast_fsqr, cast_finv, hhalf, Nat.cast_ofNat]
    field_simp
    ring

/-- The co-Z sum of two pairs stands for the sum of their points, unless the new Z is 0 (R166). -/
theorem jacobianPoint_cozAdd {p q : Nat × Nat} (h : fmul z (fsub q.1 p.1) ≠ 0) :
    jacobianPoint (cozAdd p q).2.1 (cozAdd p q).2.2 (fmul z (fsub q.1 p.1)) =
      (jacobianPoint p.1 p.2 z).add (jacobianPoint q.1 q.2 z) := by
  have := Fact.mk fieldPrime_prime
  obtain ⟨hz, hx⟩ := cast_ne_zero_of_fmul_ne_zero h
  rw [cast_fsub] at hx
  have hne : fmul p.1 (finv (fsqr z)) ≠ fmul q.1 (finv (fsqr z)) := fun heq => by
    have hcast := congrArg (Nat.cast : Nat → ZMod fieldPrime) heq
    rw [cast_fmul, cast_fmul, cast_finv, cast_fsqr] at hcast
    exact hx (sub_eq_zero.2 (mul_right_cancel₀ (inv_ne_zero (pow_ne_zero 2 hz)) hcast).symm)
  have hzNat := ne_zero_of_cast_ne_zero hz
  rw [jacobianPoint_of_ne_zero hzNat, jacobianPoint_of_ne_zero hzNat, cozAdd, jacobianPoint_of_ne_zero h, Point.add,
    if_neg hne, chordPoint]
  congr 1
  · refine eq_of_cast_eq (fmul_lt _ _) (fsub_lt _ _) ?_
    simp only [cast_fsub, cast_fmul, cast_fsqr, cast_finv]
    field_simp
  · refine eq_of_cast_eq (fmul_lt _ _) (fsub_lt _ _) ?_
    simp only [cast_fsub, cast_fmul, cast_fsqr, cast_finv]
    field_simp

/-- The pair `applyZ` gives stands, at its Z, for the affine point it was given (R163). -/
theorem jacobianPoint_applyZ (hx : x < fieldPrime) (hy : y < fieldPrime) (hz : (z : ZMod fieldPrime) ≠ 0) :
    jacobianPoint (applyZ x y z).1 (applyZ x y z).2 z = .affine x y := by
  have := Fact.mk fieldPrime_prime
  rw [jacobianPoint_of_ne_zero (ne_zero_of_cast_ne_zero hz), applyZ]
  congr 1
  · refine eq_of_cast_eq (fmul_lt _ _) hx ?_
    simp only [cast_fmul, cast_fsqr, cast_finv]
    field_simp
  · refine eq_of_cast_eq (fmul_lt _ _) hy ?_
    simp only [cast_fmul, cast_fsqr, cast_finv]
    field_simp

/-- A triple with Z = 1 stands for the affine point of its X and Y. -/
theorem jacobianPoint_one (hx : x < fieldPrime) (hy : y < fieldPrime) : jacobianPoint x y 1 = .affine x y := by
  have := Fact.mk fieldPrime_prime
  have hxOne : fmul x (finv (fsqr 1)) = x := eq_of_cast_eq (fmul_lt _ _) hx (by
    rw [cast_fmul, cast_finv, cast_fsqr, Nat.cast_one, one_pow, inv_one, mul_one])
  have hyOne : fmul y (finv (fmul (fsqr 1) 1)) = y := eq_of_cast_eq (fmul_lt _ _) hy (by
    rw [cast_fmul, cast_finv, cast_fmul, cast_fsqr, Nat.cast_one, one_pow, one_mul, inv_one, mul_one])
  rw [jacobianPoint_of_ne_zero one_ne_zero, hxOne, hyOne]

end Formulas

/-! ### Multiples without inversions

A multiple of an affine point by double-and-add on Jacobian triples, which the kernel evaluates in a moment where
`Point.mul` takes it minutes. A turn that meets O leaves Z = 0, and Z stays 0 from there on. -/

section Multiples

/-- The point a triple stands for (R16). -/
def tripleToPoint (t : Nat × Nat × Nat) : Point := jacobianPoint t.1 t.2.1 t.2.2

/-- The double of a triple (R161). -/
def doubleTriple (t : Nat × Nat × Nat) : Nat × Nat × Nat := jacobianDouble t.1 t.2.1 t.2.2

/-- A triple plus the affine point (x, y): the point at the triple's Z (R163), then a co-Z sum (R165). -/
def addToTriple (t : Nat × Nat × Nat) (x y : Nat) : Nat × Nat × Nat :=
  let q := applyZ x y t.2.2
  let sum := (cozAdd (t.1, t.2.1) q).2
  (sum.1, sum.2, fmul t.2.2 (fsub q.1 t.1))

/-- The triple of [k](x, y), for a k of `fuel + 1` bits. -/
def tripleMul (x y : Nat) : Nat → Nat → Nat × Nat × Nat
  | 0, _ => (x, y, 1)
  | fuel + 1, k =>
    let d := doubleTriple (tripleMul x y fuel (k / 2))
    if k % 2 = 1 then addToTriple d x y else d

variable {x y : Nat} {t : Nat × Nat × Nat}

theorem tripleToPoint_doubleTriple (h : (doubleTriple t).2.2 ≠ 0) :
    t.2.2 ≠ 0 ∧ tripleToPoint (doubleTriple t) = (tripleToPoint t).add (tripleToPoint t) :=
  ⟨ne_zero_of_cast_ne_zero (cast_ne_zero_of_fmul_ne_zero h).2, jacobianPoint_jacobianDouble h⟩

variable (hx : x < fieldPrime) (hy : y < fieldPrime)

include hx hy

theorem tripleToPoint_addToTriple (h : (addToTriple t x y).2.2 ≠ 0) :
    t.2.2 ≠ 0 ∧ tripleToPoint (addToTriple t x y) = (tripleToPoint t).add (.affine x y) := by
  obtain ⟨hz, -⟩ := cast_ne_zero_of_fmul_ne_zero h
  refine ⟨ne_zero_of_cast_ne_zero hz, ?_⟩
  rw [← jacobianPoint_applyZ hx hy hz]
  exact jacobianPoint_cozAdd h

/-- Where it ends with Z ≠ 0, the triple stands for the multiple. -/
theorem tripleToPoint_tripleMul (fuel : Nat) : ∀ {k : Nat}, 2 ^ fuel ≤ k → k < 2 ^ (fuel + 1) →
    (tripleMul x y fuel k).2.2 ≠ 0 →
      tripleToPoint (tripleMul x y fuel k) = (Point.affine x y).mulLoop (fuel + 1) k := by
  induction fuel with
  | zero =>
    intro k hlow hhigh _
    obtain rfl : k = 1 := by omega
    exact jacobianPoint_one hx hy
  | succ fuel ih =>
    intro k hlow hhigh hz
    have half (h : (doubleTriple (tripleMul x y fuel (k / 2))).2.2 ≠ 0) :
        tripleToPoint (doubleTriple (tripleMul x y fuel (k / 2))) =
          ((Point.affine x y).mulLoop (fuel + 1) (k / 2)).add ((Point.affine x y).mulLoop (fuel + 1) (k / 2)) := by
      obtain ⟨hhalf, hdouble⟩ := tripleToPoint_doubleTriple h
      rw [hdouble, ih (by omega) (by omega) hhalf]
    rw [Point.mulLoop_succ, if_neg (by omega)]
    rw [tripleMul] at hz ⊢
    split_ifs at hz ⊢ with hodd
    · obtain ⟨hdouble, hsum⟩ := tripleToPoint_addToTriple hx hy hz
      rw [hsum, half hdouble]
    · exact half hz

end Multiples

/-! ### G has order n (R12, R13) -/

theorem Point.generator_onE : generator.onE := ⟨by decide, by decide, by decide +kernel⟩

/-- [n − 1]G = −G. -/
theorem mul_groupOrder_sub_one_generator :
    Point.mul (groupOrder - 1) generator = .affine genX (fieldPrime - genY) := by
  have hrun : (tripleMul genX genY 383 (groupOrder - 1)).2.2 ≠ 0 ∧
      tripleToPoint (tripleMul genX genY 383 (groupOrder - 1)) = .affine genX (fieldPrime - genY) := by decide +kernel
  obtain ⟨hz, hpoint⟩ := hrun
  rw [← hpoint, Point.mul, generator]
  exact (tripleToPoint_tripleMul (by decide) (by decide) 383 (by decide +kernel) (by decide +kernel) hz).symm

/-! ### Points with the same x (R204, R207) -/

/-- Of the two roots of a square mod p, up to p itself, the parity picks one: they add up to the odd p. -/
theorem eq_of_sq_eq_of_parity {a b : Nat} (ha : a ≤ fieldPrime) (hb : b ≤ fieldPrime)
    (hsq : (a : ZMod fieldPrime) ^ 2 = (b : ZMod fieldPrime) ^ 2) (hparity : a % 2 = b % 2) : a = b := by
  have := Fact.mk fieldPrime_prime
  have hcoprime : fieldPrime.Coprime 2 := Nat.coprime_two_right.2 (Nat.odd_iff.2 (modulusValue_odd .p))
  obtain heq | hneg := sq_eq_sq_iff_eq_or_eq_neg.1 hsq
  · have hmod : a ≡ b [MOD fieldPrime * 2] :=
      (Nat.modEq_and_modEq_iff_modEq_mul hcoprime).1 ⟨(ZMod.natCast_eq_natCast_iff _ _ _).1 heq, hparity⟩
    have := fieldPrime_pos
    exact hmod.eq_of_lt_of_lt (by omega) (by omega)
  · have hsum : fieldPrime ∣ a + b := (ZMod.natCast_eq_zero_iff _ _).1 (by rw [Nat.cast_add, hneg, neg_add_cancel])
    have hdvd : fieldPrime * 2 ∣ a + b := hcoprime.mul_dvd_of_dvd_of_dvd hsum (by omega)
    -- a + b is 0 or 2p
    obtain hzero | hpos := Nat.eq_zero_or_pos (a + b)
    · omega
    · have := Nat.le_of_dvd hpos hdvd
      omega

/-! ### The group has order n (R13) -/

theorem Point.eq_zero_of_ofGroup {Q : WeierstrassCurve.Affine.Point curve} (h : Point.ofGroup Q = .infinity) :
    Q = 0 := by
  cases Q with
  | zero => rfl
  | some x y hxy => nomatch h

/-- A point by its x and the parity of its y, as its compressed form gives it (R204); O has none. -/
def compressed : WeierstrassCurve.Affine.Point curve → Option (ZMod fieldPrime × ZMod 2)
  | .zero => none
  | .some x y _ => some (x, y.val)

section Order

variable [Fact fieldPrime.Prime]

theorem compressed_injective : Function.Injective compressed
  | .zero, .zero, _ => rfl
  | .some x y h, .some x' y' h', heq => by
    simp only [compressed, Option.some.injEq, Prod.mk.injEq] at heq
    obtain ⟨rfl, hparity⟩ := heq
    have hsq : y ^ 2 = y' ^ 2 := by rw [(curve_equation_iff x y).1 h.1, (curve_equation_iff x y').1 h'.1]
    have hval : y.val = y'.val := eq_of_sq_eq_of_parity y.val_lt.le y'.val_lt.le
      (by rw [ZMod.natCast_zmod_val, ZMod.natCast_zmod_val, hsq]) ((ZMod.natCast_eq_natCast_iff' _ _ 2).1 hparity)
    obtain rfl := ZMod.val_injective _ hval
    rfl

theorem finite_curve : Finite (WeierstrassCurve.Affine.Point curve) := Finite.of_injective _ compressed_injective

theorem card_curve_le : Nat.card (WeierstrassCurve.Affine.Point curve) ≤ 2 * fieldPrime + 1 := by
  calc
    _ ≤ Nat.card (Option (ZMod fieldPrime × ZMod 2)) := Nat.card_le_card_of_injective _ compressed_injective
    _ = 2 * fieldPrime + 1 := by rw [Finite.card_option, Nat.card_prod, Nat.card_zmod, Nat.card_zmod, mul_comm]

/-- No point has order 2, for it would have y = 0 (R13). -/
theorem two_not_dvd_card_curve : ¬2 ∣ Nat.card (WeierstrassCurve.Affine.Point curve) := by
  intro hdvd
  have := finite_curve
  have := Fact.mk Nat.prime_two
  obtain ⟨Q, hQ⟩ := exists_prime_addOrderOf_dvd_card' 2 hdvd
  have hself : Q = -Q := by rw [eq_neg_iff_add_eq_zero, ← two_nsmul, ← hQ, addOrderOf_nsmul_eq_zero]
  match Q with
  | .zero => exact absurd (addOrderOf_zero.symm.trans hQ) (by decide)
  | .some x y h =>
    rw [WeierstrassCurve.Affine.Point.neg_some, WeierstrassCurve.Affine.Point.some.injEq, curve_negY] at hself
    obtain ⟨-, hy⟩ := hself
    rw [eq_neg_iff_add_eq_zero, ← two_mul, mul_eq_zero] at hy
    have hroot := (curve_equation_iff x y).1 h.1
    rw [hy.resolve_left two_ne_zero_mod_fieldPrime] at hroot
    exact cubic_ne_zero x (by rw [← hroot, zero_pow two_ne_zero])

/-- n divides the order of the group, the order of G being n. -/
theorem groupOrder_dvd_card_curve : groupOrder ∣ Nat.card (WeierstrassCurve.Affine.Point curve) := by
  have := Fact.mk groupOrder_prime
  obtain ⟨G, hG⟩ := Point.exists_ofGroup_of_onE Point.generator_onE
  have hmul : Point.ofGroup ((groupOrder - 1) • G) = .affine genX (fieldPrime - genY) := by
    rw [← Point.mulLoop_ofGroup G 384 (by decide +kernel), hG]
    exact mul_groupOrder_sub_one_generator
  have hzero : groupOrder • G = 0 := by
    refine Point.eq_zero_of_ofGroup ?_
    rw [← Nat.sub_add_cancel groupOrder_pos, succ_nsmul, Point.ofGroup_add, hmul, hG]
    decide +kernel
  have hne : G ≠ 0 := by
    rintro rfl
    nomatch hG
  rw [← addOrderOf_eq_prime hzero hne]
  exact addOrderOf_dvd_natCard G

/-- The order of the group is n: an odd multiple of n, and at most 2p + 1, which is below 3n (R13). -/
theorem card_curve : Nat.card (WeierstrassCurve.Affine.Point curve) = groupOrder := by
  have hle := card_curve_le
  have hodd := two_not_dvd_card_curve
  have hthree : 2 * fieldPrime + 1 < groupOrder * 3 := by decide +kernel
  obtain ⟨c, hc⟩ := groupOrder_dvd_card_curve
  rw [hc] at hle hodd ⊢
  have hlt : c < 3 := Nat.lt_of_mul_lt_mul_left (hle.trans_lt hthree)
  have hcodd : c % 2 ≠ 0 := fun h => hodd (Dvd.dvd.mul_left (Nat.dvd_of_mod_eq_zero h) groupOrder)
  obtain rfl : c = 1 := by omega
  exact mul_one groupOrder

end Order

/-- No multiple of a point of E by a scalar in [1, n − 1] is O: n is prime (R13, R224, R234). -/
theorem Point.mul_ne_infinity {P : Point} (hP : P.onE) (hne : P ≠ .infinity) {k : Nat} (hk : 1 ≤ k)
    (hkn : k < groupOrder) : Point.mul k P ≠ .infinity := by
  have := Fact.mk fieldPrime_prime
  obtain ⟨Q, rfl⟩ := Point.exists_ofGroup_of_onE hP
  have hbits : k < 2 ^ 384 := hkn.trans (groupOrder_lt_fieldPrime.trans fieldPrime_lt)
  rw [Point.mul, Point.mulLoop_ofGroup Q 384 hbits]
  intro hO
  have hk0 := addOrderOf_dvd_of_nsmul_eq_zero (Point.eq_zero_of_ofGroup hO)
  have hn := addOrderOf_dvd_natCard Q
  rw [card_curve] at hn
  have hone : addOrderOf Q = 1 :=
    Nat.eq_one_of_dvd_coprimes (Nat.coprime_of_lt_prime (by omega) hkn groupOrder_prime) hn hk0
  rw [AddMonoid.addOrderOf_eq_one_iff] at hone
  exact hne (by rw [hone, Point.ofGroup_zero])

/-- Such a multiple is an affine point of E (R224, R234). -/
theorem Point.exists_mul_eq_affine {P : Point} (hP : P.onE) (hne : P ≠ .infinity) {k : Nat} (hk : 1 ≤ k)
    (hkn : k < groupOrder) : ∃ x y, Point.mul k P = .affine x y ∧ x < fieldPrime := by
  have hbits : k < 2 ^ 384 := hkn.trans (groupOrder_lt_fieldPrime.trans fieldPrime_lt)
  have hE := Point.repeated_onE hP k
  have hne' := Point.mul_ne_infinity hP hne hk hkn
  rw [← Point.mul_eq_repeated hP hbits] at hE
  cases hmul : Point.mul k P with
  | infinity => exact absurd hmul hne'
  | affine x y =>
    rw [hmul] at hE
    exact ⟨x, y, rfl, hE.1⟩

end Sys2Proof.Machine

/-! # The protocol commands that draw: KEYGEN, SIGN and ECDH -/

namespace Sys2Proof.Machine

set_option exponentiation.threshold 1000

/-! ### Draws (R221) -/

section Draws

variable {α : Type} {keep : Nat → Option α} {pre post : List Nat}

/-- Rejected candidates are counted and passed over, within the budget (R221). -/
theorem sample_append_of_rejected {rest : List Nat} (hreject : ∀ c ∈ pre, keep c = none) :
    ∀ {count : Nat}, count + pre.length ≤ Config.maxDraws →
      sample keep (pre ++ rest) count = sample keep rest (count + pre.length) := by
  induction pre with
  | nil => exact fun _ => rfl
  | cons c pre ih =>
    intro count hbudget
    obtain ⟨hc, hpre⟩ := List.forall_mem_cons.1 hreject
    rw [List.length_cons] at hbudget ⊢
    rw [List.cons_append, sample_cons, if_neg (by omega), hc]
    dsimp only
    rw [ih hpre (by omega), Nat.add_right_comm, Nat.add_assoc]

variable {i : Instr} {s : State} {onKept : α → Nat → Host.Outcome State Fault Refusal}
  (hexec : exec i s = afterSampling (sample keep (candidates s.entropy) 0) s onKept)
  (hreject : ∀ c ∈ pre, keep c = none)

include hexec hreject

/-- A drawing command goes on with the first candidate it keeps. -/
theorem exec_of_kept {c : Nat} {a : α} (hcs : candidates s.entropy = pre ++ c :: post) (hlen : pre.length < 1024)
    (hkeep : keep c = some a) : exec i s = onKept a (pre.length + 1) := by
  have hbudget : 0 + pre.length ≠ Config.maxDraws := by rw [Config.maxDraws]; omega
  rw [hexec, hcs, sample_append_of_rejected hreject (by rw [Config.maxDraws]; omega), sample_cons, if_neg hbudget,
    hkeep, Nat.zero_add, afterSampling]

/-- With its whole budget rejected, a drawing command ends with RANDOM_EXHAUSTED. -/
theorem State.fails_of_rejected (hcs : candidates s.entropy = pre ++ post) (hlen : pre.length = 1024) :
    s.Fails i .randomExhausted 1024 := by
  have hspent : sample keep post 1024 = .exhausted 1024 := by cases post <;> exact if_pos rfl
  refine ⟨s.complete .randomExhausted 1024, ?_, s.failsTo_complete _ _ (by decide)⟩
  rw [hexec, hcs, sample_append_of_rejected hreject (by rw [hlen, Config.maxDraws]), hlen, Nat.zero_add, hspent,
    afterSampling, raise_eq]

end Draws

/-! ### Integers in BUF (R15, R36) -/

section Buffer

variable {s : State} {off off' v : Nat} {str : List Byte}

@[simp] theorem State.bufInt_complete (code : ErrCode) (count : Nat) :
    (s.complete code count).bufInt off = s.bufInt off := rfl

@[simp] theorem State.flags_writeBuf : (s.writeBuf off str).flags = s.flags := rfl

theorem State.writeBuf_cons (b : Byte) : s.writeBuf off (b :: str) = (s.writeBuf off [b]).writeBuf (off + 1) str := rfl

/-- The completion of a drawing command, after at most the budget of draws. -/
theorem State.completesTo_of_precedes {s' : State} (h : s.Precedes s') {count : Nat} (hcount : count ≤ 1024) :
    s.CompletesTo (s'.complete .ok count) .ok count :=
  State.completesTo_complete .ok count (hcount.trans_lt (by decide)) h.ien h.ovr h.cmd h.rst h.rdata h.reads h.env

variable (hwf : s.buf.wf = true)

include hwf

theorem State.wf_writeBuf : (s.writeBuf off str).buf.wf = true := Memory.wf_writeString hwf off str

theorem State.read_writeBuf_outside {a : Nat} (ha : a < off ∨ off + str.length ≤ a) :
    (s.writeBuf off str).buf.read a = s.buf.read a := Memory.read_writeString_outside hwf off a str ha

/-- The first byte of a string written to BUF. -/
theorem State.read_writeBuf_head {b : Byte} (hoff : off < bufSize) :
    (s.writeBuf off (b :: str)).buf.read off = b := by
  rw [State.writeBuf_buf, Memory.writeString,
    Memory.read_writeString_outside (Memory.wf_write hwf off b) _ _ _ (.inl (Nat.lt_succ_self off)),
    Memory.read_write_same hwf off b hoff]

theorem State.bufInt_writeBuf_same (hoff : off ≤ 464) (hv : v < 2 ^ 384) :
    (s.writeBuf off (be48 v)).bufInt off = v := by
  have hread := Memory.readString_writeString hwf off (be48 v) (by rw [be48_length, bufSize]; omega)
  rw [be48_length] at hread
  rw [State.bufInt, State.writeBuf_buf, hread, be_be48 v hv]

theorem State.bufInt_writeBuf_disjoint (hd : off' + 48 ≤ off ∨ off + str.length ≤ off') :
    (s.writeBuf off str).bufInt off' = s.bufInt off' := by
  rw [State.bufInt, State.writeBuf_buf, Memory.readString_writeString_disjoint hwf off off' 48 str hd, State.bufInt]

end Buffer

/-! ### The secret and the public key (R223, R206, R207) -/

section Inputs

variable {s : State}

theorem State.secret_eq_none (h : s.bufInt 0x040 = 0 ∨ groupOrder ≤ s.bufInt 0x040) : s.secret = none := if_pos h

theorem State.secret_eq_some (hlow : 1 ≤ s.bufInt 0x040) (hhigh : s.bufInt 0x040 < groupOrder) :
    s.secret = some (s.bufInt 0x040) := if_neg (by omega : ¬(s.bufInt 0x040 = 0 ∨ groupOrder ≤ s.bufInt 0x040))

variable {pre x y : Nat}

/-- Whatever decompression answers is a point of the curve, its y of the parity the first byte says (R207). -/
theorem decompress_sound {x' : Nat} (h : decompress pre x' = some (x, y)) :
    pre = 2 + y % 2 ∧ x' = x ∧ x < fieldPrime ∧ y ≤ fieldPrime ∧ curveEquation x y := by
  have hlt := sqrtCandidate_lt (curveRhs x')
  have hodd := modulusValue_odd .p
  rw [modulusValue] at hodd
  rw [decompress] at h
  dsimp only at h
  split_ifs at h with hpre hx hroot hparity
  · obtain ⟨rfl, rfl⟩ := Prod.mk.inj (Option.some.inj h)
    refine ⟨by omega, rfl, by omega, hlt.le, (curveEquation_iff_onCurve _ _).2 ?_⟩
    simpa [onCurve] using hroot
  · obtain ⟨rfl, rfl⟩ := Prod.mk.inj (Option.some.inj h)
    refine ⟨by omega, rfl, by omega, Nat.sub_le _ _, ?_⟩
    rw [curveEquation_iff_onCurve, onCurve_iff_equation, curve_equation_iff, Nat.cast_sub hlt.le, ZMod.natCast_self,
      zero_sub, neg_sq, ← cast_curveRhs, ← cast_fsqr, not_not.1 hroot]

/-- Decompression answers with every point of the curve, y told from p − y by its parity (R207). -/
theorem decompress_complete (hx : x < fieldPrime) (hy : y ≤ fieldPrime) (hcurve : curveEquation x y) :
    decompress (2 + y % 2) x = some (x, y) := by
  have heq : (y : ZMod fieldPrime) ^ 2 = curveRhs x := by
    rwa [curveEquation_iff_onCurve, onCurve_iff_equation, curve_equation_iff, ← cast_curveRhs] at hcurve
  have hresidue : y ^ 2 % fieldPrime = curveRhs x :=
    eq_of_cast_eq (Nat.mod_lt _ fieldPrime_pos) (curveRhs_lt x) (by rw [ZMod.natCast_mod, Nat.cast_pow, heq])
  have hroot : fsqr (sqrtCandidate (curveRhs x)) = curveRhs x := by
    rw [fsqr, fmul, ← pow_two]
    exact sqrtCandidate_sq_of_residue (curveRhs_lt x) ⟨y, hresidue⟩
  cases hd : decompress (2 + y % 2) x with
  | none =>
    rw [decompress, if_neg (by omega), if_neg hx.not_ge, if_neg (not_not.2 hroot)] at hd
    nomatch hd
  | some xy =>
    obtain ⟨hpre, rfl, -, hy', hcurve'⟩ := decompress_sound (x := xy.1) (y := xy.2) hd
    rw [curveEquation_iff_onCurve, onCurve_iff_equation, curve_equation_iff, ← cast_curveRhs] at hcurve'
    rw [eq_of_sq_eq_of_parity hy hy' (heq.trans hcurve'.symm) (by omega)]

/-- The model reads a public key from BUF exactly where BUF holds a compressed point (R204, R207). -/
theorem State.decompressAt_eq_some_iff {off : Nat} : s.decompressAt off = some (x, y) ↔ s.HoldsPoint off x y := by
  constructor
  · intro h
    obtain ⟨hpre, hbytes, hx, hy, hcurve⟩ := decompress_sound h
    exact ⟨hpre, hbytes, hx, hy, hcurve⟩
  · intro h
    rw [State.decompressAt, h.pre, h.xBytes]
    exact decompress_complete h.xReduced h.yBound h.root

theorem State.decompressAt_eq_none {off : Nat} (h : ¬∃ x y, s.HoldsPoint off x y) : s.decompressAt off = none :=
  Option.eq_none_iff_forall_ne_some.2 fun (x, y) hxy => h ⟨x, y, State.decompressAt_eq_some_iff.1 hxy⟩

/-- A compressed point is a point of E: y = p, which stands for 0, is no y of the curve (R13). -/
theorem State.HoldsPoint.onE {off : Nat} (h : s.HoldsPoint off x y) : (Point.affine x y).onE := by
  have hcurve := (curveEquation_iff_onCurve x y).1 h.root
  refine ⟨h.xReduced, lt_of_le_of_ne h.yBound ?_, hcurve⟩
  rintro rfl
  rw [onCurve, beq_iff_eq, fsqr, fmul, Nat.mul_mod_right] at hcurve
  exact curveRhs_ne_zero x hcurve.symm

end Inputs

/-! ### What each candidate gives (R222, R224, R225, R233) -/

section Candidates

variable {c d e r sg : Nat}

theorem isScalar_iff : isScalar c = true ↔ 1 ≤ c ∧ c < groupOrder := by
  have := groupOrder_pos
  rw [isScalar, decide_eq_true_iff]
  omega

theorem keygenKeep_eq_none (h : c = 0 ∨ groupOrder ≤ c ∨ Point.mul c generator = .infinity) :
    keygenKeep c = none := by
  rw [keygenKeep]
  split_ifs with hscalar
  · rw [isScalar_iff] at hscalar
    exact if_pos ((h.resolve_left (by omega)).resolve_left (by omega))
  · rfl

theorem keygenKeep_eq_some (hc : 1 ≤ c ∧ c < groupOrder) (hne : Point.mul c generator ≠ .infinity) :
    keygenKeep c = some (c, Point.mul c generator) := by
  rw [keygenKeep, if_pos (isScalar_iff.2 hc)]
  exact if_neg hne

/-- The s that SIGN computes with the inverse of the nonce is the one that solves s·k = e + r·d mod n (R225). -/
theorem mul_binInv_mod_eq {a : Nat} (hc : 1 ≤ c ∧ c < groupOrder) (hsg : sg < groupOrder)
    (h : sg * c % groupOrder = a % groupOrder) : a * binInv c groupOrder % groupOrder = sg := by
  obtain ⟨hlow, hhigh⟩ := hc
  have hcoprime : c.Coprime groupOrder := (Nat.coprime_of_lt_prime (by omega) hhigh groupOrder_prime).symm
  obtain ⟨-, hinv⟩ := binInv_inverts (modulusValue_odd .n) (modulusValue_lt .n) (by omega) hhigh hcoprime
  have hcast : ((a * binInv c groupOrder : Nat) : ZMod groupOrder) = sg := by
    rw [Nat.cast_mul, ← (ZMod.natCast_eq_natCast_iff' _ _ _).2 h, Nat.cast_mul, mul_assoc]
    exact (congrArg _ hinv).trans (mul_one _)
  rw [(ZMod.natCast_eq_natCast_iff' _ _ _).1 hcast, Nat.mod_eq_of_lt hsg]

theorem signKeep_eq_none (h : c = 0 ∨ groupOrder ≤ c ∨ (Point.mul c generator).x % groupOrder = 0 ∨
    (e + (Point.mul c generator).x % groupOrder * d) % groupOrder = 0) : signKeep d e c = none := by
  rw [signKeep]
  split_ifs with hscalar
  · rw [isScalar_iff] at hscalar
    refine if_pos (((h.resolve_left (by omega)).resolve_left (by omega)).imp_right fun hzero => ?_)
    rw [Nat.mul_mod, hzero, Nat.zero_mul, Nat.zero_mod]
  · rfl

theorem signKeep_eq_some (hc : 1 ≤ c ∧ c < groupOrder) (hr : (Point.mul c generator).x % groupOrder = r)
    (hr0 : r ≠ 0) (hsg : sg < groupOrder) (hsg0 : sg ≠ 0) (h : sg * c % groupOrder = (e + r * d) % groupOrder) :
    signKeep d e c = some (r, sg) := by
  rw [signKeep, if_pos (isScalar_iff.2 hc), hr]
  dsimp only
  rw [mul_binInv_mod_eq hc hsg h, if_neg (not_or.2 ⟨hr0, hsg0⟩)]

theorem blindKeep_eq_none (h : c = 0 ∨ fieldPrime ≤ c) : blindKeep c = none :=
  have := fieldPrime_pos
  if_neg (by omega)

theorem blindKeep_eq_some (h : 1 ≤ c ∧ c ≤ fieldPrime - 1) : blindKeep c = some c := if_pos h

end Candidates

theorem Point.affine_ne_infinity {x y : Nat} : Point.affine x y ≠ .infinity := nofun

/-! ### What running each command answers -/

section Answers

variable {s : State}

theorem exec_keygen_eq : exec .keygen s =
    afterSampling (sample keygenKeep (candidates s.entropy) 0) s fun dq count =>
      succeed count ((s.writeBuf 0x040 (be48 dq.1)).writeBuf 0x000 (parityPrefix dq.2.y :: be48 dq.2.x)) := rfl

theorem exec_sign_of_secret {d : Nat} (h : s.secret = some d) : exec .sign s =
    afterSampling (sample (signKeep d (s.bufInt 0x080)) (candidates s.entropy) 0) s fun rs count =>
      succeed count ((s.writeBuf 0x0C0 (be48 rs.1)).writeBuf 0x0F0 (be48 rs.2)) := by
  rw [exec, execSign, h]
  rfl

theorem sign_fails_malformed (h : s.secret = none) : s.Fails .sign .malformed 0 := by
  refine ⟨s.complete .malformed 0, ?_, s.failsTo_complete _ 0 (by decide)⟩
  rw [exec, execSign, h, raise_eq]

theorem exec_ecdh_of_inputs {d x y sx sy : Nat} (h : s.secret = some d) (hpub : s.HoldsPoint 0x000 x y)
    (hmul : Point.mul d (.affine x y) = .affine sx sy) : exec .ecdh s =
      afterSampling (sample blindKeep (candidates s.entropy) 0) s fun _ count =>
        succeed count (s.writeBuf 0x140 (be48 sx)) := by
  rw [exec, execEcdh, h, pubOff, State.decompressAt_eq_some_iff.2 hpub]
  dsimp only
  rw [hmul]
  rfl

/-- Whatever the secret, a public key that is no point ends ECDH, and so does a bad secret whatever the key. -/
theorem ecdh_fails_malformed (h : s.secret = none ∨ ¬∃ x y, s.HoldsPoint 0x000 x y) :
    s.Fails .ecdh .malformed 0 := by
  refine ⟨s.complete .malformed 0, ?_, s.failsTo_complete _ 0 (by decide)⟩
  rw [exec, execEcdh, ← raise_eq]
  obtain hsecret | hpub := h
  · rw [hsecret]
  · rw [pubOff, State.decompressAt_eq_none hpub]
    cases s.secret <;> rfl

end Answers

/-! ### The claims -/

/-- Settles O50. The public point is never O (R224), so the first scalar is kept; PUB and SECRET lie apart in BUF. -/
theorem keygenWritesAKeyPair : Obligations.KeygenWritesAKeyPair := by
  refine ⟨rfl, fun s pre post hpre => ?_⟩
  have hreject : ∀ c ∈ pre, keygenKeep c = none := fun c hc => keygenKeep_eq_none (hpre c hc)
  refine ⟨fun d hcs hlen hwf hd hdn => ?_, State.fails_of_rejected exec_keygen_eq hreject⟩
  have hscalar : 1 ≤ d ∧ d < groupOrder := isScalar_iff.1 (decide_eq_true ⟨hd, hdn⟩)
  obtain ⟨x, y, hmul, hx⟩ :=
    Point.exists_mul_eq_affine Point.generator_onE Point.affine_ne_infinity hscalar.1 hscalar.2
  have hkeep : keygenKeep d = some (d, .affine x y) := by
    rw [keygenKeep_eq_some hscalar (hmul ▸ Point.affine_ne_infinity), hmul]
  have hwfSecret : (s.writeBuf 0x040 (be48 d)).buf.wf = true := State.wf_writeBuf hwf
  have hpubLength : (parityPrefix y :: be48 x).length = 0x031 := by rw [List.length_cons, be48_length]
  have hrun : exec .keygen s = .next (((s.writeBuf 0x040 (be48 d)).writeBuf 0x000
      (parityPrefix y :: be48 x)).complete .ok (pre.length + 1)) :=
    exec_of_kept (a := (d, .affine x y)) exec_keygen_eq hreject hcs hlen hkeep
  refine ⟨_, x, y, hmul, hrun,
    State.completesTo_of_precedes ((s.precedes_self.writeBuf _ _).writeBuf _ _) hlen, fun j _ _ => by simp, by simp,
    ?secret, ?prefixByte, ?xBytes, fun a hpub hsecret => ?frame⟩
  case secret =>
    rw [State.bufInt_complete, State.bufInt_writeBuf_disjoint hwfSecret (by rw [hpubLength]; decide),
      State.bufInt_writeBuf_same hwf (by decide) (hscalar.2.trans (modulusValue_lt .n))]
  case prefixByte =>
    rw [State.complete_buf, State.read_writeBuf_head hwfSecret (by decide), parityPrefix_toNat]
  case xBytes =>
    rw [State.bufInt_complete, State.writeBuf_cons]
    exact State.bufInt_writeBuf_same (State.wf_writeBuf hwfSecret) (by decide) (hx.trans fieldPrime_lt)
  case frame =>
    rw [State.complete_buf, State.read_writeBuf_outside hwfSecret (by rwa [hpubLength]),
      State.read_writeBuf_outside hwf (by rwa [be48_length])]

/-- Settles O51. The s that solves s·k = e + r·d is the one the model computes with the inverse of the nonce; r and s
lie next to each other in SIG. -/
theorem signWritesTheSignature : Obligations.SignWritesTheSignature := by
  refine ⟨rfl, fun s => ?_⟩
  intro d e
  refine ⟨fun hbad => sign_fails_malformed (State.secret_eq_none hbad), fun hd hdn pre post hpre => ?_⟩
  have hexec := exec_sign_of_secret (State.secret_eq_some hd hdn)
  have hreject : ∀ c ∈ pre, signKeep d e c = none := fun c hc => signKeep_eq_none (hpre c hc)
  refine ⟨fun k x y r sg hcs hlen hwf hk hkn hmul hr hr0 hsg hsg0 hsolves => ?_,
    State.fails_of_rejected hexec hreject⟩
  have hkeep : signKeep d e k = some (r, sg) :=
    signKeep_eq_some (isScalar_iff.1 (decide_eq_true ⟨hk, hkn⟩)) (by rw [hmul, hr, Point.x]) hr0 hsg hsg0 hsolves
  have hr384 : r < 2 ^ 384 := hr ▸ (Nat.mod_lt x groupOrder_pos).trans (modulusValue_lt .n)
  have hwfR : (s.writeBuf 0x0C0 (be48 r)).buf.wf = true := State.wf_writeBuf hwf
  have hrun : exec .sign s = .next (((s.writeBuf 0x0C0 (be48 r)).writeBuf 0x0F0 (be48 sg)).complete .ok
      (pre.length + 1)) := exec_of_kept (a := (r, sg)) hexec hreject hcs hlen hkeep
  refine ⟨_, hrun,
    State.completesTo_of_precedes ((s.precedes_self.writeBuf _ _).writeBuf _ _) hlen, fun j _ _ => by simp, by simp,
    ?rBytes, ?sBytes, fun a ha => ?frame⟩
  case rBytes =>
    rw [State.bufInt_complete, State.bufInt_writeBuf_disjoint hwfR (.inl (by decide)),
      State.bufInt_writeBuf_same hwf (by decide) hr384]
  case sBytes =>
    rw [State.bufInt_complete, State.bufInt_writeBuf_same hwfR (by decide) (hsg.trans (modulusValue_lt .n))]
  case frame =>
    rw [State.complete_buf, State.read_writeBuf_outside hwfR (by rw [be48_length]; omega),
      State.read_writeBuf_outside hwf (by rw [be48_length]; omega)]

/-- Settles O53. A key that decompresses is a point of E, so its multiple by the secret is no O (R234); the blinding
value is drawn and not used. -/
theorem ecdhWritesTheSharedSecret : Obligations.EcdhWritesTheSharedSecret := by
  refine ⟨rfl, fun s => ?_⟩
  intro d
  refine ⟨fun hbad => ecdh_fails_malformed (.inl (State.secret_eq_none hbad)),
    fun hpub => ecdh_fails_malformed (.inr hpub), fun hd hdn x y hpub pre post hpre => ?_⟩
  obtain ⟨sx, sy, hmul, hsx⟩ := Point.exists_mul_eq_affine hpub.onE Point.affine_ne_infinity hd hdn
  have hexec := exec_ecdh_of_inputs (State.secret_eq_some hd hdn) hpub hmul
  have hreject : ∀ c ∈ pre, blindKeep c = none := fun c hc => blindKeep_eq_none (hpre c hc)
  refine ⟨fun z0 hcs hlen hz hzp hwf => ?_, State.fails_of_rejected hexec hreject⟩
  refine ⟨_, sx, sy, hmul, exec_of_kept hexec hreject hcs hlen (blindKeep_eq_some ⟨hz, hzp⟩),
    State.completesTo_of_precedes (s.precedes_self.writeBuf _ _) hlen, fun j _ _ => by simp, by simp,
    ?shared, fun a ha => ?frame⟩
  case shared =>
    rw [State.bufInt_complete, State.bufInt_writeBuf_same hwf (by decide) (hsx.trans fieldPrime_lt)]
  case frame =>
    rw [State.complete_buf, State.read_writeBuf_outside hwf (by rwa [be48_length])]

end Sys2Proof.Machine

/-! # The system commands: NOP and ZEROIZE -/

namespace Sys2Proof

/-! ### A command without operands has one word (R88) -/

/-- Where the reserved bits and all seven operand fields are zero, the opcode is the whole word (R80). -/
theorem toNat_eq_fieldOp_of_zero {w : Word64} (hreserved : reservedZero w = true) (hfields : unusedZero {} w = true) :
    w.toNat = fieldOp w := by
  have hw : w.toNat < 2 ^ 64 := w.isLt
  simp only [unusedZero, Bool.false_or, Bool.and_eq_true, beq_iff_eq, fieldRd, fieldRa, fieldRb, fieldRc, fieldM,
    fieldZr, fieldImm, ← BitVec.toNat_inj, BitVec.toNat_ofNat, BitVec.ofNat_eq_ofNat,
    Nat.zero_mod, slice] at hfields
  simp only [reservedZero, Bool.and_eq_true, beq_iff_eq, slice] at hreserved
  rw [fieldOp, slice]
  omega

/-- A row that uses no operand field refuses every word but its opcode (R88). -/
theorem checked_of_ne_fieldOp {w : Word64} (hw : w.toNat ≠ fieldOp w) (i : Instr) :
    checked {} w i = .error .illegalOperand := by
  rw [checked, if_neg]
  intro hpass
  obtain ⟨⟨hreserved, hfields⟩, -⟩ : (reservedZero w = true ∧ unusedZero {} w = true) ∧ i.wellFormed = true := by
    simpa only [Bool.and_eq_true] using hpass
  exact hw (toNat_eq_fieldOp_of_zero hreserved hfields)

/-- Decode refuses a word with the opcode of a row without operands and any other bit set (R88). -/
theorem decode_of_operand_bits {w w0 : Word64} {i : Instr} (hrow : decode w = checked {} w i)
    (hop : w.toNat % 256 = w0.toNat) (hw : w ≠ w0) : decode w = .error .illegalOperand := by
  rw [hrow]
  refine checked_of_ne_fieldOp (fun heq => hw (BitVec.eq_of_toNat_eq ?_)) i
  rw [heq, fieldOp_eq, hop]

theorem decode_of_fieldOp_nop {w : Word64} (hop : fieldOp w = 0x00) : decode w = checked {} w .nop := by
  simp only [decode, hop]

theorem decode_of_fieldOp_zeroize {w : Word64} (hop : fieldOp w = 0x01) : decode w = checked {} w .zeroize := by
  simp only [decode, hop]

end Sys2Proof

namespace Sys2Proof.Machine

/-! ### What ZEROIZE writes (R241) -/

/-- V, BUF and the flags all zero, and everything else as before. -/
def State.zeroized (s : State) : State := State.clearFlags { s with v := Vector.replicate 16 0, buf := [] }

theorem exec_zeroize (s : State) : exec .zeroize s = .next (s.zeroized.complete .ok 0) := rfl

theorem State.readV_zeroized (s : State) (j : Nat) : s.zeroized.readV j = 0 := by
  obtain hj | hj := Nat.lt_or_ge j 16
  · simp [State.readV, State.zeroized, hj]
  · exact s.zeroized.readV_beyond j hj

theorem State.read_zeroized (s : State) (k : Nat) : s.zeroized.buf.read k = 0 := rfl

theorem State.flags_zeroized (s : State) : s.zeroized.flags = (false, false, 0, false, false) := rfl

/-- ZEROIZE writes neither CTRL.IEN nor STATUS.OVR, so its completion has the frame of any other (R35). -/
theorem State.completesTo_zeroized (s : State) : s.CompletesTo (s.zeroized.complete .ok 0) .ok 0 :=
  State.completesTo_complete .ok 0 (by decide) rfl rfl rfl rfl rfl rfl rfl

/-! ### Reset and NOP's word (R33, R280) -/

/-- With no event to come, the core has its turn after reset and rests, because it is IDLE (log entry 1). -/
theorem step_reset : step State.reset = .next State.reset := by
  have hturn : step State.reset = coreTurn State.reset := step_of_env_nil rfl
  rw [hturn, coreTurn_idle rfl]

/-! ### The claims -/

/-- Settles O28. A word with NOP's opcode that is not 0 has a nonzero bit in a reserved or unused field; the completion
starts from the state itself. -/
theorem nopOnlyCompletes : Obligations.NopOnlyCompletes := by
  have hword : decode 0 = .ok .nop := decode_encode_of_wellFormed (i := .nop) rfl
  refine ⟨hword, fun w hop hw => ?other, fun s => ⟨s.complete .ok 0, exec_nop s, s.succeeds_complete, rfl⟩, hword,
    step_reset⟩
  case other => exact decode_of_operand_bits (w0 := 0) (decode_of_fieldOp_nop ((fieldOp_eq w).trans hop)) hop hw

/-- Settles O29. Its word is its opcode alone, as NOP's is; the cleared registers, bytes and flags are read from the
state it completes from. -/
theorem zeroizeClearsStorage : Obligations.ZeroizeClearsStorage := by
  refine ⟨decode_encode_of_wellFormed (i := .zeroize) rfl, fun w hop hw => ?other, fun s => ?clears⟩
  case other => exact decode_of_operand_bits (w0 := 1) (decode_of_fieldOp_zeroize ((fieldOp_eq w).trans hop)) hop hw
  case clears =>
    refine ⟨s.zeroized.complete .ok 0, exec_zeroize s, s.completesTo_zeroized, fun j _ => ?_, s.read_zeroized,
      s.flags_zeroized⟩
    rw [State.readV_complete, s.readV_zeroized]

end Sys2Proof.Machine

/-! # Reset, and host writes while BUSY -/

namespace Sys2Proof.Machine

/-! ### The reset input (R280, R281) -/

section Reset

variable {s : State} {e : Event} {rest : List Event}

/-- An event of the schedule works on the state whose schedule has moved on (R298). -/
theorem step_eq_runEvent_past (h : s.env = e :: rest) : step s = runEvent e s.past := by
  rw [step_of_env_cons h, s.past_of_env_cons h]

theorem step_of_rst {level : Bool} (h : s.env = .rst level :: rest) : step s = .next (s.past.setRst level) := by
  rw [step_eq_runEvent_past h, runEvent]

/-- While the reset input is asserted, every event but a change of its level is only taken off the schedule (R280;
log entry 4). -/
theorem runEvent_of_reset (hrst : s.rst = true) (he : ∀ level, e ≠ .rst level) : runEvent e s = .next s := by
  cases e with
  | hostWrite off size d => rw [runEvent, if_pos hrst]
  | hostRead off size => rw [runEvent, if_pos hrst]
  | entropyWord w => rw [runEvent, if_pos hrst]
  | coreTurn => rw [runEvent, coreTurn_reset hrst]
  | rst level => exact absurd rfl (he level)

end Reset

theorem State.readV_reset {j : Nat} (hj : j < 16) : State.reset.readV j = 0 := by
  simp [State.readV, State.reset, hj]

/-! ### Host writes while BUSY (R290) -/

section BusyWrites

variable (s : State) {off : BitVec 12} {size : Nat}

/-- What a host write reaches that the core drops while BUSY: a word of V, BUF or CMD (R290). -/
inductive Target.IsDroppedWhileBusy : Target → Prop where
  | cmd : IsDroppedWhileBusy .cmd
  | vWord (i j : Nat) : IsDroppedWhileBusy (.vWord i j)
  | bufEight (k : Nat) : IsDroppedWhileBusy (.bufEight k)
  | bufOne (k : Nat) : IsDroppedWhileBusy (.bufOne k)

/-- The offsets of V and BUF by words, of BUF by bytes, and of CMD (R51, R52). -/
theorem target_isDroppedWhileBusy
    (h : (size = 8 ∧ off.toNat % 8 = 0 ∧ 0x100 ≤ off.toNat ∧ off.toNat ≤ 0x5FF) ∨
      (size = 1 ∧ 0x400 ≤ off.toNat ∧ off.toNat ≤ 0x5FF) ∨ (size = 8 ∧ off = 0x018)) :
    (target off size).IsDroppedWhileBusy := by
  obtain ⟨rfl, haligned, hlow, hhigh⟩ | ⟨rfl, hlow, hhigh⟩ | ⟨rfl, rfl⟩ := h
  · rw [target, if_pos ⟨rfl, haligned⟩]
    iterate 5 rw [if_neg (by omega)]
    split_ifs with hv hbuf
    · exact .vWord _ _
    · exact .bufEight _
    · omega
  · rw [target, if_neg (by omega), if_pos ⟨rfl, hlow, hhigh⟩]
    exact .bufOne _
  · exact .cmd

theorem State.hostWrite_of_busy (d : Word64) (ht : (target off size).IsDroppedWhileBusy) (hbusy : s.phase = .busy) :
    s.hostWrite off size d = { s with ovr := true } := by
  have hb := State.busy_of_phase_busy hbusy
  rw [State.hostWrite]
  cases ht' : target off size with
  | cmd => exact if_pos hb
  | vWord i j => exact if_pos hb
  | bufEight k => exact if_pos hb
  | bufOne k => exact if_pos hb
  | _ => rw [ht'] at ht; nomatch ht

theorem target_status : target 0x010 8 = .status := rfl

/-- A write to STATUS clears DONE and OVR where bits 1 and 2 say so (R32). -/
theorem State.hostWrite_status (d : Word64) :
    s.hostWrite 0x010 8 d = s.acknowledge (d.getLsbD 1) (d.getLsbD 2) := by
  have hbit (b : Bool) : (b.toNat == 1) = b := by cases b <;> rfl
  rw [State.hostWrite, target_status]
  dsimp only
  rw [State.writeStatus, slice_self_toNat, slice_self_toNat, hbit, hbit]

end BusyWrites

/-! ### The claims -/

/-- Settles O8. Every field is a literal of `State.reset`. -/
theorem resetValues : Obligations.ResetValues :=
  ⟨fun _ hj => State.readV_reset hj, fun _ => rfl, rfl, rfl, rfl, rfl, rfl, rfl, rfl, rfl, rfl, rfl, rfl, rfl,
    rfl, rfl, rfl, rfl⟩

/-- Settles O26. Taking a level resets the state whatever the level was; the CMD write after release meets an IDLE core
with the input released. -/
theorem hardReset : Obligations.HardReset := by
  refine ⟨fun s level rest henv => ?level, fun s e rest hrst henv he => ?heldOff, fun s hrst henv => ?emptySchedule,
    fun s w rest henv => ?released⟩
  case level =>
    rw [step_of_rst henv, s.past_of_env_cons henv]
    rfl
  case heldOff => rw [step_eq_runEvent_past henv, runEvent_of_reset (s := s.past) hrst he]
  case emptySchedule => rw [step_of_env_nil henv, coreTurn_reset hrst]
  case released =>
    have hnext : (s.past.setRst false).hostWrites 0x018 8 w := ⟨rfl, rest, by simp [State.setRst, henv]⟩
    refine ⟨s.past.setRst false, (s.past.setRst false).past.accept w, step_of_rst henv, rfl, ?_, rfl, rfl⟩
    rw [step_of_hostWrites hnext, State.hostWrite_cmd_of_idle _ w rfl]

/-- Settles O19. The dropped ranges of R290 are V, BUF and CMD in the address map; CTRL and STATUS do not look at the
phase. -/
theorem busyHostWritesAreDropped : Obligations.BusyHostWritesAreDropped := by
  refine ⟨fun s off size d hw hbusy hrange => ?dropped, fun s d hw hbusy hsrst => ?ctrl, fun s d hw hbusy => ?status⟩
  case dropped => rw [step_of_hostWrites hw, s.past.hostWrite_of_busy d (target_isDroppedWhileBusy hrange) hbusy]
  case ctrl =>
    refine ⟨_, step_of_hostWrites hw, ?_⟩
    rw [State.hostWrite_ctrl_of_not_srst _ hsrst]
    exact ⟨rfl, hbusy⟩
  case status =>
    refine ⟨_, step_of_hostWrites hw, ?_⟩
    rw [State.hostWrite_status]
    exact ⟨rfl, rfl, hbusy⟩

end Sys2Proof.Machine

/-! # Every step keeps the invariant -/

namespace Sys2Proof.Machine

set_option exponentiation.threshold 1000

/-! ### CMP (R26) -/

section Cmp

variable {s s' : State} {o : Host.Outcome State Fault Refusal}

/-- CMP is not `10` after `o`, where it is not before (R26). -/
def State.KeepsCmpLegal (s : State) (o : Host.Outcome State Fault Refusal) : Prop :=
  ∀ t, o = .next t → s.cmp ≠ 0b10 → t.cmp ≠ 0b10

theorem cmpFlag_legal (a b : Nat) : cmpFlag a b ≠ 0b10 := by
  rw [cmpFlag]
  split_ifs <;> decide

theorem State.keepsCmpLegal_complete {code : ErrCode} {count : Nat} (h : s.cmp ≠ 0b10 → s'.cmp ≠ 0b10) :
    s.KeepsCmpLegal (.next (s'.complete code count)) := by
  rintro t ⟨⟩
  exact h

theorem State.keepsCmpLegal_raise {code : ErrCode} {count : Nat} : s.KeepsCmpLegal (raise code count s) :=
  State.keepsCmpLegal_complete id

theorem State.keepsCmpLegal_guarded {i : Instr} (h : s.KeepsCmpLegal o) : s.KeepsCmpLegal (guarded i s o) := by
  rw [guarded]
  split_ifs
  · exact h
  · exact State.keepsCmpLegal_raise

theorem State.keepsCmpLegal_reduced {m : Nat} {values : List Nat} (h : s.KeepsCmpLegal o) :
    s.KeepsCmpLegal (reduced m values s o) := by
  rw [reduced]
  split_ifs
  · exact h
  · exact State.keepsCmpLegal_raise

theorem State.keepsCmpLegal_afterSampling {α : Type} {r : Sampled α}
    {onKept : α → Nat → Host.Outcome State Fault Refusal} (h : ∀ a count, s.KeepsCmpLegal (onKept a count)) :
    s.KeepsCmpLegal (afterSampling r s onKept) := by
  cases r with
  | kept a count => exact h a count
  | exhausted count => exact State.keepsCmpLegal_raise
  | waiting =>
    rintro t ⟨⟩
    exact id

/-- ZEROIZE writes 00 to CMP, VCMP one of its three codes, and no other command writes it. -/
theorem exec_keepsCmpLegal (i : Instr) (s : State) : s.KeepsCmpLegal (exec i s) := by
  have ofKept {s' : State} {count : Nat} (h : s'.cmp = s.cmp) : s.KeepsCmpLegal (succeed count s') :=
    State.keepsCmpLegal_complete fun hs => h ▸ hs
  cases i with
  | zeroize =>
    rw [exec_zeroize]
    exact State.keepsCmpLegal_complete fun _ => (by decide : (0 : BitVec 2) ≠ 0b10)
  | vcmp ra rb => exact State.keepsCmpLegal_complete fun _ => cmpFlag_legal (s.src ra) (s.src rb)
  | nop | vset | viszero | vnumbits | vlshift1 | vrshift1 | vadd | vsub => exact ofKept (by simp)
  | ldc | vtestbit | vmul | vsqr | redp | loadb | storeb | pcomp => exact State.keepsCmpLegal_guarded (ofKept (by simp))
  | modadd | modsub | modmul | modsqr | modinv | modsqrt => exact State.keepsCmpLegal_reduced (ofKept (by simp))
  | applyz | cozadd | cozaddc | lstep =>
    exact State.keepsCmpLegal_guarded (State.keepsCmpLegal_reduced (ofKept (by simp)))
  | jdbl =>
    refine State.keepsCmpLegal_guarded (State.keepsCmpLegal_reduced ?_)
    split_ifs
    · exact ofKept (by simp)
    · exact ofKept (by simp)
  | smul =>
    refine State.keepsCmpLegal_guarded (State.keepsCmpLegal_reduced ?_)
    split_ifs
    · exact State.keepsCmpLegal_raise
    · exact State.keepsCmpLegal_raise
    · exact ofKept (by simp)
  | pdecomp rd imm =>
    refine State.keepsCmpLegal_guarded ?_
    cases s.decompressAt imm.toNat with
    | none => exact State.keepsCmpLegal_raise
    | some xy => exact ofKept (by simp)
  | keygen =>
    rw [exec, execKeygen]
    exact State.keepsCmpLegal_afterSampling fun _ _ => ofKept (by simp)
  | sign =>
    rw [exec, execSign]
    cases s.secret with
    | none => exact State.keepsCmpLegal_raise
    | some d => exact State.keepsCmpLegal_afterSampling fun _ _ => ofKept (by simp)
  | verify =>
    rw [exec, execVerify]
    cases s.decompressAt pubOff with
    | none => exact State.keepsCmpLegal_complete id
    | some xy => exact ofKept (by simp)
  | ecdh =>
    rw [exec, execEcdh]
    cases s.secret with
    | none => exact State.keepsCmpLegal_raise
    | some d =>
      cases s.decompressAt pubOff with
      | none => exact State.keepsCmpLegal_raise
      | some xy =>
        refine State.keepsCmpLegal_afterSampling fun _ _ => ?_
        cases Point.mul d (.affine xy.1 xy.2) with
        | infinity => exact State.keepsCmpLegal_raise
        | affine sx sy => exact ofKept (by simp)

end Cmp

/-! ### A command that stays BUSY needs a word (R39, R64) -/

section Waiting

variable {s t : State}

/-- A drawing command that is BUSY after its turn has a sampling loop that waits, if whatever it does with a kept
candidate completes it. -/
theorem isWaiting_of_afterSampling_busy {α : Type} {r : Sampled α}
    {onKept : α → Nat → Host.Outcome State Fault Refusal}
    (hkept : ∀ a count, onKept a count = .next t → t.phase = .idle) (h : afterSampling r s onKept = .next t)
    (hbusy : t.phase = .busy) : r.isWaiting = true := by
  obtain ⟨a, k, -, ht⟩ | ⟨k, -, rfl⟩ | ⟨rfl, -⟩ := afterSampling_cases h
  · nomatch (hkept a k ht).symm.trans hbusy
  · nomatch hbusy
  · rfl

theorem phase_of_succeed {s' : State} {count : Nat} (h : succeed count s' = .next t) : t.phase = .idle := by
  obtain rfl := Host.Outcome.next.inj h
  rfl

theorem phase_of_raise {code : ErrCode} {count : Nat} (h : raise code count s = .next t) : t.phase = .idle := by
  obtain rfl := Host.Outcome.next.inj h
  rfl

/-- The command in CMD stays BUSY only where it needs an entropy word (R64). -/
theorem needsWord_of_exec_busy {i : Instr} (hd : decode s.cmd = .ok i) (h : exec i s = .next t)
    (hbusy : t.phase = .busy) : s.needsWord = true := by
  obtain ⟨s', code, count, -, -, rfl⟩ | ⟨hdraws, -⟩ := exec_cases h
  · nomatch hbusy
  rw [State.needsWord, hd]
  cases i with
  | keygen => exact isWaiting_of_afterSampling_busy (fun _ _ => phase_of_succeed) h hbusy
  | sign =>
    rw [exec, execSign] at h
    cases hsecret : s.secret with
    | none =>
      rw [hsecret] at h
      nomatch (phase_of_raise h).symm.trans hbusy
    | some d =>
      rw [hsecret] at h
      exact isWaiting_of_afterSampling_busy (fun _ _ => phase_of_succeed) h hbusy
  | ecdh =>
    rw [exec, execEcdh] at h
    cases hsecret : s.secret with
    | none =>
      rw [hsecret] at h
      nomatch (phase_of_raise h).symm.trans hbusy
    | some d =>
      cases hpub : s.decompressAt pubOff with
      | none =>
        rw [hsecret, hpub] at h
        nomatch (phase_of_raise h).symm.trans hbusy
      | some xy =>
        rw [hsecret, hpub] at h
        refine isWaiting_of_afterSampling_busy (fun _ _ hkept => ?_) h hbusy
        cases hmul : Point.mul d (.affine xy.1 xy.2) with
        | infinity =>
          rw [hmul] at hkept
          exact phase_of_raise hkept
        | affine sx sy =>
          rw [hmul] at hkept
          exact phase_of_succeed hkept
  | _ => nomatch hdraws

end Waiting

/-! ### The invariant after each update -/

section Updates

variable {s t : State}

theorem State.entReadyDriven_of_idle (hidle : s.phase = .idle) (hready : s.entReady = false) : s.entReadyDriven := by
  rw [State.entReadyDriven, State.busy_of_phase_idle hidle, Bool.false_and, hready]

/-- ent_ready is at its level after whatever leaves it, the phase, CMD, BUF and the words taken as they are. -/
theorem State.entReadyDriven_congr (h : s.entReadyDriven) (hready : t.entReady = s.entReady)
    (hphase : t.phase = s.phase) (hcmd : t.cmd = s.cmd) (hbuf : t.buf = s.buf) (hentropy : t.entropy = s.entropy) :
    t.entReadyDriven := by
  rw [State.entReadyDriven, State.needsWord_congr hcmd hbuf hentropy, State.busy, hphase, hready]
  exact h

theorem State.entReadyDriven_driveEntReady : s.driveEntReady.entReadyDriven := by
  rw [State.entReadyDriven, State.driveEntReady_entReady,
    State.needsWord_congr s.driveEntReady_cmd s.driveEntReady_buf s.driveEntReady_entropy, State.busy, State.busy,
    State.driveEntReady_phase]

theorem State.Consistent.entReady_of_idle (h : s.Consistent) (hidle : s.phase = .idle) : s.entReady = false := by
  rw [h.entReadyLevel, State.busy_of_phase_idle hidle, Bool.false_and]

/-- ent_ready is raised only for a BUSY command that needs a word (R39). -/
theorem State.Consistent.phase_of_entReady (h : s.Consistent) (hready : s.entReady = true) : s.phase = .busy := by
  cases hphase : s.phase with
  | busy => rfl
  | idle => rw [h.entReady_of_idle hphase] at hready; nomatch hready

/-- The invariant reads none of the model's own fields, nor V, OVR and the flags other than CMP. -/
theorem State.Consistent.congr (h : s.Consistent) (v : Vector Vli 16) (ovr rst : Bool) (rdata : Word64) (reads : Nat)
    (env : List Event) :
    State.Consistent { s with v := v, ovr := ovr, rst := rst, rdata := rdata, reads := reads, env := env } where
  bufCanonical := h.bufCanonical
  irqLevel := h.irqLevel
  entReadyLevel := State.entReadyDriven_congr h.entReadyLevel rfl rfl rfl rfl rfl
  busyNotDone := h.busyNotDone
  idleHoldsNoWord := h.idleHoldsNoWord
  cmpLegal := h.cmpLegal
  drawsBounded := h.drawsBounded

theorem State.Consistent.past (h : s.Consistent) : s.past.Consistent :=
  h.congr s.v s.ovr s.rst s.rdata s.reads s.env.tail

theorem State.consistent_reset : State.reset.Consistent where
  bufCanonical := rfl
  irqLevel := rfl
  entReadyLevel := State.entReadyDriven_of_idle rfl rfl
  busyNotDone := nofun
  idleHoldsNoWord := fun _ => rfl
  cmpLegal := by decide
  drawsBounded := by decide

theorem State.consistent_resetCore : s.resetCore.Consistent :=
  State.consistent_reset.congr _ false s.rst s.rdata s.reads s.env

theorem State.consistent_setRst (level : Bool) : (s.setRst level).Consistent :=
  State.consistent_reset.congr _ false level s.rdata s.reads s.env

/-- Completion leaves a consistent state, wherever BUF is canonical and CMP legal and the count within the budget. -/
theorem State.consistent_complete {code : ErrCode} {count : Nat} (hwf : s.buf.wf = true) (hcmp : s.cmp ≠ 0b10)
    (hcount : count ≤ Config.maxDraws) : (s.complete code count).Consistent where
  bufCanonical := hwf
  irqLevel := rfl
  entReadyLevel := State.entReadyDriven_of_idle rfl rfl
  busyNotDone := nofun
  idleHoldsNoWord := fun _ => rfl
  cmpLegal := hcmp
  drawsBounded := by
    rw [State.complete_draws, BitVec.toNat_ofNat]
    exact (Nat.mod_le _ _).trans hcount

theorem State.Consistent.accept (h : s.Consistent) (w : Word64) : (s.accept w).Consistent where
  bufCanonical := h.bufCanonical
  irqLevel := rfl
  entReadyLevel := State.entReadyDriven_driveEntReady
  busyNotDone := fun _ => ⟨rfl, rfl⟩
  idleHoldsNoWord := nofun
  cmpLegal := h.cmpLegal
  drawsBounded := h.drawsBounded

theorem State.Consistent.acknowledge (h : s.Consistent) (clearDone clearOvr : Bool) :
    (s.acknowledge clearDone clearOvr).Consistent where
  bufCanonical := h.bufCanonical
  irqLevel := rfl
  entReadyLevel := State.entReadyDriven_congr h.entReadyLevel rfl rfl rfl rfl rfl
  busyNotDone := fun hbusy => by
    obtain ⟨hdone, herr⟩ := h.busyNotDone hbusy
    exact ⟨by rw [State.acknowledge_done, hdone, Bool.false_and], herr⟩
  idleHoldsNoWord := h.idleHoldsNoWord
  cmpLegal := h.cmpLegal
  drawsBounded := h.drawsBounded

theorem State.Consistent.writeIen (h : s.Consistent) (b : Bool) : State.Consistent { s with ien := b }.driveIrq where
  bufCanonical := h.bufCanonical
  irqLevel := rfl
  entReadyLevel := State.entReadyDriven_congr h.entReadyLevel rfl rfl rfl rfl rfl
  busyNotDone := h.busyNotDone
  idleHoldsNoWord := h.idleHoldsNoWord
  cmpLegal := h.cmpLegal
  drawsBounded := h.drawsBounded

theorem State.Consistent.writeCtrl (h : s.Consistent) (d : Word64) : (s.writeCtrl d).Consistent := by
  rw [State.writeCtrl]
  split_ifs
  · exact State.consistent_resetCore
  · exact h.writeIen _

theorem State.Consistent.writeV (h : s.Consistent) (i : Nat) (x : Vli) : (s.writeV i x).Consistent :=
  h.congr (s.v.setIfInBounds i x) s.ovr s.rst s.rdata s.reads s.env

/-- A write to BUF while IDLE: no command is there whose need of a word it could change. -/
theorem State.Consistent.writeBuf (h : s.Consistent) (hidle : s.phase = .idle) (off : Nat) (str : List Byte) :
    (s.writeBuf off str).Consistent where
  bufCanonical := Memory.wf_writeString h.bufCanonical off str
  irqLevel := h.irqLevel
  entReadyLevel := State.entReadyDriven_of_idle hidle (h.entReady_of_idle hidle)
  busyNotDone := h.busyNotDone
  idleHoldsNoWord := h.idleHoldsNoWord
  cmpLegal := h.cmpLegal
  drawsBounded := h.drawsBounded

end Updates

/-! ### The invariant after each event -/

section Events

variable {s t : State}

/-- A host read changes only what the host has been handed (R65). -/
theorem State.hostRead_eq (s : State) (off : BitVec 12) (size : Nat) :
    ∃ rdata reads, s.hostRead off size = { s with rdata := rdata, reads := reads } := by
  rw [State.hostRead]
  cases target off size with
  | vWord i j => dsimp only; split_ifs <;> exact ⟨_, _, rfl⟩
  | bufEight k => dsimp only; split_ifs <;> exact ⟨_, _, rfl⟩
  | bufOne k => dsimp only; split_ifs <;> exact ⟨_, _, rfl⟩
  | _ => exact ⟨_, _, rfl⟩

theorem State.Consistent.hostRead (h : s.Consistent) (off : BitVec 12) (size : Nat) :
    (s.hostRead off size).Consistent := by
  obtain ⟨rdata, reads, heq⟩ := s.hostRead_eq off size
  rw [heq]
  exact h.congr s.v s.ovr s.rst rdata reads s.env

/-- A write that the core drops while BUSY and takes while IDLE (R290). -/
theorem State.Consistent.dropOrTake (h : s.Consistent) (htake : s.phase = .idle → t.Consistent) :
    (if s.busy then s.dropWrite else t).Consistent := by
  cases hphase : s.phase with
  | busy =>
    rw [if_pos (State.busy_of_phase_busy hphase)]
    exact h.congr s.v true s.rst s.rdata s.reads s.env
  | idle =>
    rw [State.busy_of_phase_idle hphase]
    exact htake hphase

theorem State.Consistent.hostWrite (h : s.Consistent) (off : BitVec 12) (size : Nat) (d : Word64) :
    (s.hostWrite off size d).Consistent := by
  rw [State.hostWrite]
  cases target off size with
  | id | draws | nothing => exact h
  | ctrl => exact h.writeCtrl d
  | status => exact h.acknowledge _ _
  | cmd => exact h.dropOrTake fun _ => h.accept d
  | vWord i j => exact h.dropOrTake fun _ => h.writeV i _
  | bufEight k => exact h.dropOrTake fun hidle => h.writeBuf hidle k _
  | bufOne k => exact h.dropOrTake fun hidle => h.writeBuf hidle k _

/-- A word transfers only to a BUSY command, whose need of a further word ent_ready then follows (R39, R62). -/
theorem State.Consistent.offerEntropy (h : s.Consistent) (w : Word64) : (s.offerEntropy w).Consistent := by
  rw [State.offerEntropy]
  split_ifs with hready
  · have hbusy := h.phase_of_entReady hready
    exact {
      bufCanonical := h.bufCanonical
      irqLevel := h.irqLevel
      entReadyLevel := State.entReadyDriven_driveEntReady
      busyNotDone := h.busyNotDone
      idleHoldsNoWord := fun hidle => nomatch hidle.symm.trans hbusy
      cmpLegal := h.cmpLegal
      drawsBounded := h.drawsBounded }
  · exact h

/-- A turn that leaves the command waiting changes nothing: ent_ready has been up since acceptance (log entry 20). -/
theorem State.Consistent.raiseEntReady (h : s.Consistent) (hbusy : s.phase = .busy) (hneeds : s.needsWord = true) :
    { s with entReady := true } = s := by
  have hready : s.entReady = true := by
    rw [h.entReadyLevel, State.busy_of_phase_busy hbusy, hneeds]
    rfl
  rw [← hready]

theorem State.Consistent.coreTurn (h : s.Consistent) (ht : coreTurn s = .next t) : t.Consistent := by
  obtain ⟨-, rfl⟩ | ⟨-, hbusy, ⟨i, hd, hexec⟩ | ⟨e, -, rfl⟩⟩ := coreTurn_cases ht
  · exact h
  · have hcmp := exec_keepsCmpLegal i s t hexec h.cmpLegal
    obtain ⟨s', code, count, hpre, hcount, rfl⟩ | ⟨-, rfl⟩ := exec_cases hexec
    · exact State.consistent_complete (hpre.wf h.bufCanonical) hcmp hcount
    · rw [h.raiseEntReady hbusy (needsWord_of_exec_busy hd hexec hbusy)]
      exact h
  · exact State.consistent_complete h.bufCanonical h.cmpLegal (Nat.zero_le _)

/-- While the reset input is asserted an event of the host or of the entropy source does nothing (R280). -/
theorem State.Consistent.unlessReset (h : s.Consistent) (ht : t.Consistent) :
    (if s.rst then s else t).Consistent := by
  split_ifs
  · exact h
  · exact ht

theorem State.Consistent.runEvent {e : Event} (h : s.Consistent) (ht : runEvent e s = .next t) : t.Consistent := by
  obtain ⟨off, size, d, -, rfl⟩ | ⟨off, size, -, rfl⟩ | ⟨w, -, rfl⟩ | ⟨-, hturn⟩ | ⟨level, -, rfl⟩ := runEvent_cases ht
  · exact h.unlessReset (h.hostWrite off size d)
  · exact h.unlessReset (h.hostRead off size)
  · exact h.unlessReset (h.offerEntropy w)
  · exact h.coreTurn hturn
  · exact State.consistent_setRst level

end Events

/-! ### The claim -/

/-- Settles O10. Each event keeps the invariant; the core's turn either completes the command or, where it needs a
word, finds ent_ready up already. -/
theorem stepKeepsConsistent : Obligations.StepKeepsConsistent := by
  intro s t h hstep
  cases henv : s.env with
  | nil => exact h.coreTurn (step_of_env_nil henv ▸ hstep)
  | cons e rest =>
    rw [step_eq_runEvent_past henv] at hstep
    exact h.past.runEvent hstep

end Sys2Proof.Machine

/-! # Drawing commands wait for entropy -/

namespace Sys2Proof.Machine

set_option exponentiation.threshold 1000

/-- With every candidate rejected and budget left, a drawing command raises ent_ready and stays BUSY (R64, R221). -/
theorem exec_waits_of_rejected {α : Type} {keep : Nat → Option α} {i : Instr} {s : State}
    {onKept : α → Nat → Host.Outcome State Fault Refusal}
    (hexec : exec i s = afterSampling (sample keep (candidates s.entropy) 0) s onKept)
    (hlen : (candidates s.entropy).length < 1024) (hreject : ∀ c ∈ candidates s.entropy, keep c = none) :
    exec i s = .next { s with entReady := true } := by
  have hbudget : 0 + (candidates s.entropy).length < Config.maxDraws := by rwa [Nat.zero_add, Config.maxDraws]
  have hwaits : sample keep (candidates s.entropy) 0 = .waiting := by
    rw [← List.append_nil (candidates s.entropy), sample_append_of_rejected hreject hbudget.le, sample_nil,
      if_neg hbudget.ne]
  rw [hexec, hwaits, afterSampling, awaitEntropy_eq]

/-- Settles O17. ECDH's product is no O for a legal secret and a point of the curve (R234), so it too is one sampling
loop. -/
theorem drawingCommandsWaitForEntropy : Obligations.DrawingCommandsWaitForEntropy := by
  intro s _ hlen
  refine ⟨fun hall => ?keygen, fun hd hdn => ⟨fun hall => ?sign, fun x y hpub hall => ?ecdh⟩⟩
  case keygen => exact exec_waits_of_rejected exec_keygen_eq hlen fun c hc => keygenKeep_eq_none (hall c hc)
  case sign =>
    exact exec_waits_of_rejected (exec_sign_of_secret (State.secret_eq_some hd hdn)) hlen
      fun c hc => signKeep_eq_none (hall c hc)
  case ecdh =>
    obtain ⟨sx, sy, hmul, -⟩ := Point.exists_mul_eq_affine hpub.onE Point.affine_ne_infinity hd hdn
    exact exec_waits_of_rejected (exec_ecdh_of_inputs (State.secret_eq_some hd hdn) hpub hmul) hlen
      fun c hc => blindKeep_eq_none (hall c hc)

end Sys2Proof.Machine

/-! # A word and its command: encoding after decode -/

namespace Sys2Proof

/-! ### A word is assembled from its own fields (R80, R88) -/

/-- With the reserved bits zero, the fields are all there is of a word (R80). -/
theorem assemble_fields {w : Word64} (h : reservedZero w = true) :
    assemble (fieldOp w) (fieldRd w) (fieldRa w) (fieldRb w) (fieldRc w) (fieldM w) (fieldZr w) (fieldImm w) = w := by
  have hw : w.toNat < 2 ^ 64 := w.isLt
  simp only [reservedZero, Bool.and_eq_true, beq_iff_eq, slice] at h
  apply BitVec.eq_of_toNat_eq
  simp only [assemble, fieldOp, fieldRd, fieldRa, fieldRb, fieldRc, fieldM, fieldZr, fieldImm, slice,
    BitVec.toNat_ofNat]
  omega

theorem fieldM_lt (w : Word64) : fieldM w < 2 := Nat.mod_lt _ (by decide)

theorem fieldZr_eq_one {w : Word64} (h : fieldZr w ≠ 0) : fieldZr w = 1 := by
  have hlt : fieldZr w < 2 := Nat.mod_lt _ (by decide)
  omega

/-- The modulus that M selects has M as its bit (R84). -/
theorem modulusBit_modulusOf {m : Nat} (h : m < 2) : modulusBit (modulusOf m) = m := by
  rw [modulusOf]
  split
  next h0 => exact h0.symm
  next h0 =>
    rw [modulusBit]
    omega

/-- The checks of a row that pass: the command is the row's, read from a word with no bit beyond its fields and none in
an unused field (R88, R89). -/
theorem checked_eq_ok_iff {u : Uses} {w : Word64} {i j : Instr} :
    checked u w i = .ok j ↔ (reservedZero w = true ∧ unusedZero u w = true ∧ i.wellFormed = true) ∧ i = j := by
  rw [checked, ← and_assoc, ← Bool.and_eq_true, ← Bool.and_eq_true]
  split
  next hpass => simp [hpass]
  next hpass => simp [hpass]

/-- A row that encodes its command from the fields it uses, where the others are zero, accepts only the word of that
command. -/
theorem encode_eq_of_checked {u : Uses} {w : Word64} {i j : Instr} (h : checked u w i = .ok j)
    (hrow : unusedZero u w = true → encode i =
      assemble (fieldOp w) (fieldRd w) (fieldRa w) (fieldRb w) (fieldRc w) (fieldM w) (fieldZr w) (fieldImm w)) :
    encode j = w ∧ j.wellFormed = true := by
  obtain ⟨⟨hreserved, hunused, hwf⟩, rfl⟩ := checked_eq_ok_iff.1 h
  exact ⟨(hrow hunused).trans (assemble_fields hreserved), hwf⟩

/-- A word that decodes is the word of a well-formed command. -/
theorem encode_of_decode {w : Word64} {i : Instr} (h : decode w = .ok i) : encode i = w ∧ i.wellFormed = true := by
  have hm := modulusBit_modulusOf (fieldM_lt w)
  unfold decode at h
  split at h
  -- the last row: every opcode value that no row names
  case h_36 => nomatch h
  -- 0x39 (SMUL) is the one row that reads ZR before its checks (R85)
  case h_27 hop =>
    split at h
    next hzr =>
      refine encode_eq_of_checked h fun hunused => ?_
      simp_all [unusedZero, encode]
    next hzr =>
      refine encode_eq_of_checked h fun hunused => ?_
      simp_all [unusedZero, encode, fieldZr_eq_one hzr]
  all_goals
    rename_i hop
    refine encode_eq_of_checked h fun hunused => ?_
    simp_all [unusedZero, encode]

end Sys2Proof

namespace Sys2Proof.Machine

/-! ### A command term outside the operand ranges (log entry 13) -/

/-- A command whose operands have a range to keep runs behind the checks of R81 to R83. -/
theorem exists_exec_eq_guarded {i : Instr} (h : i.wellFormed = false) (s : State) :
    ∃ effect, exec i s = guarded i s effect := by
  cases i with
  | ldc | vtestbit | vmul | vsqr | redp | jdbl | applyz | cozadd | cozaddc | lstep | smul | loadb | storeb | pcomp
  | pdecomp => exact ⟨_, rfl⟩
  | _ => nomatch h

/-! ### The claims -/

/-- Settles O2. The fields of the assembled word read back, and only the operand checks are left to pass. -/
theorem encodedCommandsDecode : Obligations.EncodedCommandsDecode := fun _ h => decode_encode_of_wellFormed h

/-- Settles O3. The row of the opcode reads every field it uses and refuses any other nonzero bit, so its command is
assembled from the fields of the word again. -/
theorem acceptedWordIsItsEncoding : Obligations.AcceptedWordIsItsEncoding := fun _ _ h => encode_of_decode h

/-- Settles O6. Every command with an operand range to break runs behind the operand checks. -/
theorem illFormedCommandsFail : Obligations.IllFormedCommandsFail := by
  intro i s hill
  obtain ⟨effect, hexec⟩ := exists_exec_eq_guarded hill s
  exact ⟨_, hexec.trans (guarded_of_illFormed hill s effect), s.failsTo_complete .illegalOperand 0 (by decide)⟩

end Sys2Proof.Machine

/-! # How a command ends -/

namespace Sys2Proof.Machine

/-! ### What running a command can end in, with what it draws and what an error keeps (R34, R221, R252) -/

section Ends

/-- The candidates a command may have drawn when it completes (R34, R221). -/
def DrawCount (i : Instr) (count : Nat) : Prop := count ≤ Config.maxDraws ∧ (drawsEntropy i = false → count = 0)

theorem drawCount_zero (i : Instr) : DrawCount i 0 := ⟨Nat.zero_le _, fun _ => rfl⟩

/-- The state that an error completion of a command starts from: VERIFY clears VOK, no other command writes anything
(R252, R28). -/
def State.failing (s : State) (i : Instr) : State := if i = .verify then s.setVok false else s

theorem State.failing_of_ne {i : Instr} (h : i ≠ .verify) (s : State) : s.failing i = s := if_neg h

/-- What running `i` on `s` can end in: a success, an error that commits nothing, or a wait for entropy, of a drawing
command that has not got the candidates of its whole budget. -/
inductive State.Ends (s : State) (i : Instr) : Host.Outcome State Fault Refusal → Prop where
  | success (s' : State) (count : Nat) : DrawCount i count → s.Ends i (succeed count s')
  | error (code : ErrCode) (count : Nat) : DrawCount i count → s.Ends i (raise code count (s.failing i))
  | waits : drawsEntropy i = true → (candidates s.entropy).length < Config.maxDraws → s.Ends i (awaitEntropy s)

variable {s : State} {i : Instr} {o : Host.Outcome State Fault Refusal}

theorem State.ends_succeed (s' : State) : s.Ends i (succeed 0 s') := .success s' 0 (drawCount_zero i)

theorem State.ends_raise (code : ErrCode) {count : Nat} (hc : DrawCount i count) (hi : i ≠ .verify := by nofun) :
    s.Ends i (raise code count s) := by
  have h := State.Ends.error (s := s) code count hc
  rwa [s.failing_of_ne hi] at h

theorem State.ends_guarded (h : s.Ends i o) (hi : i ≠ .verify := by nofun) : s.Ends i (guarded i s o) := by
  rw [guarded]
  split_ifs
  · exact h
  · exact State.ends_raise _ (drawCount_zero i) hi

theorem State.ends_reduced {m : Nat} {values : List Nat} (h : s.Ends i o) (hi : i ≠ .verify := by nofun) :
    s.Ends i (reduced m values s o) := by
  rw [reduced]
  split_ifs
  · exact h
  · exact State.ends_raise _ (drawCount_zero i) hi

/-- A sampling loop on all the candidates taken: it waits only where they are fewer than the budget (R221). -/
theorem State.ends_sample {α : Type} {keep : Nat → Option α} {onKept : α → Nat → Host.Outcome State Fault Refusal}
    (h : ∀ a count, DrawCount i count → s.Ends i (onKept a count)) (hdraws : drawsEntropy i = true) :
    s.Ends i (afterSampling (sample keep (candidates s.entropy) 0) s onKept) := by
  have hi : i ≠ .verify := by
    rintro rfl
    nomatch hdraws
  have hcount {count : Nat} (hc : count ≤ Config.maxDraws) : DrawCount i count :=
    ⟨hc, fun hnot => nomatch hnot.symm.trans hdraws⟩
  cases hs : sample keep (candidates s.entropy) 0 with
  | kept a k =>
    obtain ⟨-, hk, -⟩ := sample_kept (Nat.zero_le _) hs
    exact h a k (hcount hk)
  | exhausted k => exact State.ends_raise _ (hcount (sample_exhausted hs).le) hi
  | waiting =>
    obtain ⟨hlen, -⟩ := sample_waiting (Nat.zero_le _) hs
    exact .waits hdraws (by rwa [Nat.zero_add] at hlen)

/-- What each command can end in. -/
theorem exec_ends (i : Instr) (s : State) : s.Ends i (exec i s) := by
  cases i with
  | nop | zeroize | vset | viszero | vnumbits | vcmp | vlshift1 | vrshift1 | vadd | vsub => exact State.ends_succeed _
  | ldc | vtestbit | vmul | vsqr | redp | loadb | storeb | pcomp =>
    exact State.ends_guarded (State.ends_succeed _)
  | modadd | modsub | modmul | modsqr | modinv | modsqrt => exact State.ends_reduced (State.ends_succeed _)
  | applyz | cozadd | cozaddc | lstep =>
    exact State.ends_guarded (State.ends_reduced (State.ends_succeed _))
  | jdbl =>
    refine State.ends_guarded (State.ends_reduced ?_)
    split_ifs
    · exact State.ends_succeed _
    · exact State.ends_succeed _
  | smul =>
    refine State.ends_guarded (State.ends_reduced ?_)
    split_ifs
    · exact State.ends_raise _ (drawCount_zero _)
    · exact State.ends_raise _ (drawCount_zero _)
    · exact State.ends_succeed _
  | pdecomp rd imm =>
    refine State.ends_guarded ?_
    cases s.decompressAt imm.toNat with
    | none => exact State.ends_raise _ (drawCount_zero _)
    | some xy => exact State.ends_succeed _
  | keygen => exact State.ends_sample (fun _ count hc => .success _ count hc) rfl
  | sign =>
    rw [exec, execSign]
    cases s.secret with
    | none => exact State.ends_raise _ (drawCount_zero _)
    | some d => exact State.ends_sample (fun _ count hc => .success _ count hc) rfl
  | verify =>
    rw [exec, execVerify]
    cases s.decompressAt pubOff with
    | none => exact .error .malformed 0 (drawCount_zero _)
    | some xy => exact State.ends_succeed _
  | ecdh =>
    rw [exec, execEcdh]
    cases s.secret with
    | none => exact State.ends_raise _ (drawCount_zero _)
    | some d =>
      cases s.decompressAt pubOff with
      | none => exact State.ends_raise _ (drawCount_zero _)
      | some xy =>
        refine State.ends_sample (fun _ count hc => ?_) rfl
        cases Point.mul d (.affine xy.1 xy.2) with
        | infinity => exact State.ends_raise _ hc
        | affine sx sy => exact .success _ count hc

/-- How a command that answers `t` has ended. -/
theorem exec_ends_cases {t : State} (h : exec i s = .next t) :
    (∃ (s' : State) (count : Nat), DrawCount i count ∧ t = s'.complete .ok count) ∨
      (∃ code count, DrawCount i count ∧ t = (s.failing i).complete code count) ∨
      (drawsEntropy i = true ∧ (candidates s.entropy).length < Config.maxDraws ∧ t = { s with entReady := true }) := by
  have hends := exec_ends i s
  rw [h] at hends
  generalize ho : Host.Outcome.next t = o at hends
  cases hends with
  | success s' count hc => exact .inl ⟨s', count, hc, Host.Outcome.next.inj ho⟩
  | error code count hc => exact .inr (.inl ⟨code, count, hc, Host.Outcome.next.inj ho⟩)
  | waits hdraws hlen => exact .inr (.inr ⟨hdraws, hlen, Host.Outcome.next.inj ho⟩)

/-- Every command ends in a next state. -/
theorem exists_exec_eq_next (i : Instr) (s : State) : ∃ t, exec i s = .next t := by
  have hends := exec_ends i s
  generalize exec i s = o at hends
  cases hends with
  | success s' count _ => exact ⟨_, rfl⟩
  | error code count _ => exact ⟨_, rfl⟩
  | waits _ _ => exact ⟨_, rfl⟩

/-- A command that cannot wait completes, within its budget of draws (R34, R221). -/
theorem exec_completes (h : drawsEntropy i = true → Config.maxDraws ≤ (candidates s.entropy).length) :
    ∃ t count, exec i s = .next t ∧ t.phase = .idle ∧ t.done = true ∧ t.draws = BitVec.ofNat 64 count ∧
      DrawCount i count := by
  obtain ⟨t, ht⟩ := exists_exec_eq_next i s
  obtain ⟨s', count, hc, rfl⟩ | ⟨code, count, hc, rfl⟩ | ⟨hdraws, hlen, -⟩ := exec_ends_cases ht
  · exact ⟨_, count, ht, rfl, rfl, rfl, hc⟩
  · exact ⟨_, count, ht, rfl, rfl, rfl, hc⟩
  · exact absurd (h hdraws) hlen.not_ge

theorem drawCount_lt_two_pow {count : Nat} (h : DrawCount i count) : count < 2 ^ 64 := h.1.trans_lt (by decide)

end Ends

/-! ### The core's turn (R298) -/

theorem exists_coreTurn_eq_next (s : State) : ∃ t, coreTurn s = .next t := by
  rw [coreTurn]
  split_ifs
  · exact ⟨s, rfl⟩
  · cases s.phase with
    | idle => exact ⟨s, rfl⟩
    | busy =>
      cases decode s.cmd with
      | ok i => exact exists_exec_eq_next i s
      | error e => exact ⟨_, rfl⟩

theorem exists_runEvent_eq_next (e : Event) (s : State) : ∃ t, runEvent e s = .next t := by
  cases e with
  | coreTurn => exact exists_coreTurn_eq_next s
  | _ => exact ⟨_, rfl⟩

/-! ### What stays while a command stays BUSY (R36, R290, R291) -/

section Busy

variable {s t u : State}

/-- What a BUSY command reads is in `t` as it was in `s`, but for entropy words that have joined those it had. -/
structure State.KeepsOperands (s t : State) : Prop where
  v : t.v = s.v
  buf : t.buf = s.buf
  cmd : t.cmd = s.cmd
  flags : t.flags = s.flags
  err : t.err = s.err
  draws : t.draws = s.draws
  entropy : ∃ ws, t.entropy = s.entropy ++ ws

/-- The control bits, the outputs and what the host has been handed are no operands. -/
theorem State.keepsOperands_update (s : State) (ien done ovr irq entReady : Bool) (rdata : Word64) (reads : Nat) :
    s.KeepsOperands { s with
      ien := ien, done := done, ovr := ovr, irq := irq, entReady := entReady, rdata := rdata, reads := reads } :=
  ⟨rfl, rfl, rfl, rfl, rfl, rfl, [], (List.append_nil _).symm⟩

theorem State.keepsOperands_self (s : State) : s.KeepsOperands s := s.keepsOperands_update _ _ _ _ _ _ _

/-- A host write to a BUSY machine that leaves it BUSY is dropped, or reaches CTRL or STATUS, or nothing (R290). -/
theorem State.keepsOperands_hostWrite (hbusy : s.phase = .busy) {off : BitVec 12} {size : Nat} {d : Word64}
    (ht : (s.hostWrite off size d).phase = .busy) : s.KeepsOperands (s.hostWrite off size d) := by
  have hb := State.busy_of_phase_busy hbusy
  rw [State.hostWrite] at ht ⊢
  cases htarget : target off size with
  | id | draws | nothing => exact s.keepsOperands_self
  | status => exact s.keepsOperands_update _ _ _ _ _ _ _
  | ctrl =>
    rw [htarget] at ht
    dsimp only [State.writeCtrl] at ht ⊢
    split_ifs at ht ⊢
    · nomatch ht
    · exact s.keepsOperands_update _ _ _ _ _ _ _
  | cmd | vWord | bufEight | bufOne =>
    dsimp only
    rw [if_pos hb]
    exact s.keepsOperands_update _ _ _ _ _ _ _

theorem State.keepsOperands_hostRead (s : State) (off : BitVec 12) (size : Nat) :
    s.KeepsOperands (s.hostRead off size) := by
  obtain ⟨rdata, reads, heq⟩ := s.hostRead_eq off size
  rw [heq]
  exact s.keepsOperands_update _ _ _ _ _ _ _

theorem State.keepsOperands_offerEntropy (s : State) (w : Word64) : s.KeepsOperands (s.offerEntropy w) := by
  rw [State.offerEntropy]
  split_ifs
  · exact ⟨rfl, rfl, rfl, rfl, rfl, rfl, [w], rfl⟩
  · exact s.keepsOperands_self

/-- The core's turn leaves a machine BUSY only where the command waits for entropy, or reset holds it. -/
theorem State.keepsOperands_coreTurn (h : coreTurn s = .next t) (ht : t.phase = .busy) : s.KeepsOperands t := by
  obtain ⟨-, rfl⟩ | ⟨-, -, ⟨i, -, hexec⟩ | ⟨e, -, rfl⟩⟩ := coreTurn_cases h
  · exact t.keepsOperands_self
  · obtain ⟨s', code, count, -, -, rfl⟩ | ⟨-, rfl⟩ := exec_cases hexec
    · nomatch ht
    · exact s.keepsOperands_update _ _ _ _ _ _ _
  · nomatch ht

/-- While the reset input is asserted an event of the host or of the entropy source does nothing (R280). -/
theorem State.keepsOperands_unlessReset (h : t = if s.rst then s else u) (ht : t.phase = .busy)
    (hu : u.phase = .busy → s.KeepsOperands u) : s.KeepsOperands t := by
  split_ifs at h
  · exact h ▸ s.keepsOperands_self
  · subst h
    exact hu ht

theorem State.keepsOperands_runEvent {e : Event} (hbusy : s.phase = .busy) (h : runEvent e s = .next t)
    (ht : t.phase = .busy) : s.KeepsOperands t := by
  obtain ⟨off, size, d, -, heq⟩ | ⟨off, size, -, heq⟩ | ⟨w, -, heq⟩ | ⟨-, hturn⟩ | ⟨level, -, rfl⟩ := runEvent_cases h
  · exact State.keepsOperands_unlessReset heq ht (State.keepsOperands_hostWrite hbusy)
  · exact State.keepsOperands_unlessReset heq ht fun _ => s.keepsOperands_hostRead off size
  · exact State.keepsOperands_unlessReset heq ht fun _ => s.keepsOperands_offerEntropy w
  · exact State.keepsOperands_coreTurn hturn ht
  · nomatch ht

end Busy

/-! ### The claims -/

/-- Settles O9. `State.reset` is consistent field by field. -/
theorem consistentAtReset : Obligations.ConsistentAtReset := State.consistent_reset

/-- Settles O7. The core's turn on the state whose schedule has moved on, with the command decoded. -/
theorem stepRunsTheDecodedCommand : Obligations.StepRunsTheDecodedCommand := by
  intro s i hrst hbusy hcore hd
  rw [step_of_coreIsNext hcore, coreTurn_ok (s := s.past) hrst hbusy hd]

/-- Settles O5. The core's turn on a word that fails decode is an error completion of the state itself. -/
theorem failedDecodeCommitsNothing : Obligations.FailedDecodeCommitsNothing := by
  intro s e hrst hbusy hcore hd
  obtain ⟨t, hstep, hfails⟩ := step_failsTo_of_decode_error hrst hbusy hcore hd
  cases e with
  | illegalOpcode => exact ⟨t, hstep, hfails⟩
  | illegalOperand => exact ⟨t, hstep, hfails⟩

/-- Settles O11. Every event is a total update of the state, and every command ends in a next state. -/
theorem everyStepGivesANextState : Obligations.EveryStepGivesANextState := by
  intro s
  cases henv : s.env with
  | nil =>
    rw [step_of_env_nil henv]
    exact exists_coreTurn_eq_next s
  | cons e rest =>
    rw [step_eq_runEvent_past henv]
    exact exists_runEvent_eq_next e s.past

/-- Settles O12. Of the events that leave the machine BUSY, none writes what the command reads, and only an entropy word
that transfers adds to it. -/
theorem operandsStayWhileBusy : Obligations.OperandsStayWhileBusy := by
  intro s t hbusy hstep ht
  have hkeeps : s.KeepsOperands t := by
    cases henv : s.env with
    | nil => exact State.keepsOperands_coreTurn (step_of_env_nil henv ▸ hstep) ht
    | cons e rest =>
      rw [step_eq_runEvent_past henv] at hstep
      obtain ⟨hv, hbuf, hcmd, hflags, herr, hdraws, hentropy⟩ :=
        State.keepsOperands_runEvent (s := s.past) hbusy hstep ht
      exact ⟨hv, hbuf, hcmd, hflags, herr, hdraws, hentropy⟩
  exact ⟨hkeeps.v, hkeeps.buf, hkeeps.cmd, hkeeps.flags, hkeeps.err, hkeeps.draws, hkeeps.entropy⟩

/-- Settles O13. A completion with an error starts from the state itself, or, for VERIFY, from it with VOK cleared. -/
theorem failedCommandWritesNothing : Obligations.FailedCommandWritesNothing := by
  intro i s t hbusy hexec hidle herr
  obtain ⟨s', count, -, rfl⟩ | ⟨code, count, hc, rfl⟩ | ⟨-, -, rfl⟩ := exec_ends_cases hexec
  · exact absurd rfl herr
  · have hdraws : (BitVec.ofNat 64 count).toNat = count := by
      rw [BitVec.toNat_ofNat, Nat.mod_eq_of_lt (drawCount_lt_two_pow hc)]
    rw [State.complete_err, State.complete_draws, hdraws, State.failing]
    split_ifs
    all_goals
      exact ⟨State.completesTo_complete code count (drawCount_lt_two_pow hc) rfl rfl rfl rfl rfl rfl rfl, rfl, rfl, rfl⟩
  · nomatch hbusy.symm.trans hidle

/-- Settles O15. Only a drawing command waits, and only it counts candidates. -/
theorem commandsWithoutDrawsCompleteAtOnce : Obligations.CommandsWithoutDrawsCompleteAtOnce := by
  intro i s hnone
  obtain ⟨t, count, hexec, hidle, hdone, hdraws, -, hzero⟩ :=
    exec_completes (i := i) (s := s) fun hdraws => nomatch hnone.symm.trans hdraws
  exact ⟨t, hexec, hidle, hdone, by rw [hdraws, hzero hnone]; rfl⟩

/-- Settles O16. 6·1024 words are 1024 candidates, the whole budget, so no sampling loop waits. -/
theorem enoughEntropyEndsEveryCommand : Obligations.EnoughEntropyEndsEveryCommand := by
  intro i s hwords
  have hcandidates : Config.maxDraws ≤ (candidates s.entropy).length := by
    rw [candidates_length, Config.maxDraws]
    omega
  obtain ⟨t, count, hexec, hidle, hdone, hdraws, hbudget, -⟩ := exec_completes (i := i) (s := s) fun _ => hcandidates
  refine ⟨t, hexec, hidle, hdone, ?_⟩
  rw [hdraws, BitVec.toNat_ofNat]
  exact (Nat.mod_le _ _).trans hbudget

end Sys2Proof.Machine

/-! # The flags: who writes them, and that no command reads them -/

namespace Sys2Proof.Machine

set_option exponentiation.threshold 1000

/-! ### A state with other flags (R23) -/

/-- Values for the five flags. -/
structure Flags where
  z : Bool
  c : Bool
  cmp : BitVec 2
  bit : Bool
  vok : Bool

/-- The state with these flags instead of its own. -/
def State.withFlags (s : State) (f : Flags) : State :=
  { s with z := f.z, c := f.c, cmp := f.cmp, bit := f.bit, vok := f.vok }

/-- The flags of the state itself. -/
def State.ownFlags (s : State) : Flags := ⟨s.z, s.c, s.cmp, s.bit, s.vok⟩

section WithFlags

variable (s : State) (f : Flags) (r : Reg)

theorem State.withFlags_own : s.withFlags s.ownFlags = s := rfl

-- What commands read of a state does not depend on the flags.
@[simp] theorem State.withFlags_src : (s.withFlags f).src r = s.src r := rfl
@[simp] theorem State.withFlags_srcAt (k : Nat) : (s.withFlags f).srcAt r k = s.srcAt r k := rfl
@[simp] theorem State.withFlags_srcPair : (s.withFlags f).srcPair r = s.srcPair r := rfl
@[simp] theorem State.withFlags_srcPairAt (k : Nat) : (s.withFlags f).srcPairAt r k = s.srcPairAt r k := rfl
@[simp] theorem State.withFlags_srcWide : (s.withFlags f).srcWide r = s.srcWide r := rfl
@[simp] theorem State.withFlags_bufInt (off : Nat) : (s.withFlags f).bufInt off = s.bufInt off := rfl
@[simp] theorem State.withFlags_secret : (s.withFlags f).secret = s.secret := rfl
@[simp] theorem State.withFlags_decompressAt (off : Nat) : (s.withFlags f).decompressAt off = s.decompressAt off := rfl
@[simp] theorem State.withFlags_keygenSample : (s.withFlags f).keygenSample = s.keygenSample := rfl
@[simp] theorem State.withFlags_signSample (d : Nat) : (s.withFlags f).signSample d = s.signSample d := rfl
@[simp] theorem State.withFlags_blindSample : (s.withFlags f).blindSample = s.blindSample := rfl

-- What commands write to V and BUF leaves the flags alone.
@[simp] theorem State.dst_withFlags (x : Nat) : (s.withFlags f).dst r x = (s.dst r x).withFlags f := rfl
@[simp] theorem State.dstWide_withFlags (x : Nat) : (s.withFlags f).dstWide r x = (s.dstWide r x).withFlags f := rfl
@[simp] theorem State.dstPair_withFlags (xy : Nat × Nat) :
    (s.withFlags f).dstPair r xy = (s.dstPair r xy).withFlags f := rfl
@[simp] theorem State.dstTriple_withFlags (xyz : Nat × Nat × Nat) :
    (s.withFlags f).dstTriple r xyz = (s.dstTriple r xyz).withFlags f := rfl
@[simp] theorem State.dstPairAt_withFlags (k : Nat) (xy : Nat × Nat) :
    (s.withFlags f).dstPairAt r k xy = (s.dstPairAt r k xy).withFlags f := rfl
@[simp] theorem State.writeBuf_withFlags (off : Nat) (str : List Byte) :
    (s.withFlags f).writeBuf off str = (s.writeBuf off str).withFlags f := rfl

end WithFlags

/-! ### The flags a command writes -/

/-- The flags a command writes, with what it writes to them. -/
structure FlagWrites where
  z : Option Bool := none
  c : Option Bool := none
  cmp : Option (BitVec 2) := none
  bit : Option Bool := none
  vok : Option Bool := none

/-- The flags after the writes. -/
def FlagWrites.over (w : FlagWrites) (f : Flags) : Flags :=
  ⟨w.z.getD f.z, w.c.getD f.c, w.cmp.getD f.cmp, w.bit.getD f.bit, w.vok.getD f.vok⟩

/-- The writes are those that R24 to R28 and R241 give to this command. -/
structure FlagWrites.Allowed (w : FlagWrites) (i : Instr) : Prop where
  z : w.z ≠ none → i = .zeroize ∨ ∃ ra, i = .viszero ra
  c : w.c ≠ none → i = .zeroize ∨ (∃ rd ra rb, i = .vadd rd ra rb) ∨ (∃ rd ra rb, i = .vsub rd ra rb) ∨
    (∃ rd ra, i = .vlshift1 rd ra) ∨ ∃ rd ra, i = .vrshift1 rd ra
  cmp : w.cmp ≠ none → i = .zeroize ∨ ∃ ra rb, i = .vcmp ra rb
  bit : w.bit ≠ none → i = .zeroize ∨ ∃ ra imm, i = .vtestbit ra imm
  vok : w.vok ≠ none → i = .zeroize ∨ i = .verify

theorem FlagWrites.Allowed.of_none (i : Instr) : FlagWrites.Allowed {} i := by constructor <;> simp

theorem FlagWrites.Allowed.of_zeroize (w : FlagWrites) : w.Allowed .zeroize := by constructor <;> simp

section Getting

variable {α : Type} {o : Option α} {a b : α}

theorem ne_none_of_getD_ne (h : o.getD a ≠ a) : o ≠ none := by
  rintro rfl
  exact h rfl

theorem getD_eq_of_getD_ne (h : o.getD a ≠ a) : o.getD b = o.getD a := by
  cases o with
  | none => exact absurd rfl h
  | some x => rfl

end Getting

/-! ### No command reads a flag -/

section Blind

/-- An answer, as a function of the flags started from, that depends on them only by leaving those alone that the
command does not write. -/
def FlagBlind (i : Instr) (o : Flags → Host.Outcome State Fault Refusal) : Prop :=
  ∃ (w : FlagWrites) (t : State), w.Allowed i ∧ ∀ f, o f = .next (t.withFlags (w.over f))

variable {i : Instr} {s : State} {o : Flags → Host.Outcome State Fault Refusal}

theorem flagBlind_succeed (s' : State) (count : Nat) : FlagBlind i fun f => succeed count (s'.withFlags f) :=
  ⟨{}, s'.complete .ok count, .of_none i, fun _ => rfl⟩

theorem flagBlind_raise (s' : State) (code : ErrCode) (count : Nat) :
    FlagBlind i fun f => raise code count (s'.withFlags f) :=
  ⟨{}, s'.complete code count, .of_none i, fun _ => rfl⟩

theorem flagBlind_ite {p : Prop} {inst : Flags → Decidable p} {o' : Flags → Host.Outcome State Fault Refusal}
    (h : FlagBlind i o) (h' : FlagBlind i o') : FlagBlind i fun f => @ite _ p (inst f) (o f) (o' f) := by
  by_cases hp : p
  · simpa only [if_pos hp] using h
  · simpa only [if_neg hp] using h'

theorem flagBlind_guarded (h : FlagBlind i o) : FlagBlind i fun f => guarded i (s.withFlags f) (o f) :=
  flagBlind_ite h (flagBlind_raise s _ _)

theorem flagBlind_reduced {m : Nat} {values : List Nat} (h : FlagBlind i o) :
    FlagBlind i fun f => reduced m values (s.withFlags f) (o f) :=
  flagBlind_ite h (flagBlind_raise s _ _)

theorem flagBlind_afterSampling {α : Type} {r : Sampled α}
    {onKept : Flags → α → Nat → Host.Outcome State Fault Refusal}
    (h : ∀ a count, FlagBlind i fun f => onKept f a count) :
    FlagBlind i fun f => afterSampling r (s.withFlags f) (onKept f) := by
  cases r with
  | kept a count => exact h a count
  | exhausted count => exact flagBlind_raise s _ _
  | waiting => exact ⟨{}, { s with entReady := true }, .of_none i, fun _ => rfl⟩

/-- Every command's answer depends on the flags it starts from only by what it leaves of them. -/
theorem exec_flagBlind (i : Instr) (s : State) : FlagBlind i fun f => exec i (s.withFlags f) := by
  cases i with
  | nop => exact flagBlind_succeed s 0
  | zeroize =>
    exact ⟨⟨some false, some false, some 0, some false, some false⟩, s.zeroized.complete .ok 0, .of_zeroize _,
      fun _ => rfl⟩
  | viszero ra =>
    exact ⟨{ z := some (zeroFlag (s.src ra)) }, s.complete .ok 0, by constructor <;> simp, fun _ => rfl⟩
  | vcmp ra rb =>
    exact ⟨{ cmp := some (cmpFlag (s.src ra) (s.src rb)) }, s.complete .ok 0, by constructor <;> simp, fun _ => rfl⟩
  | vtestbit ra imm =>
    exact flagBlind_guarded
      ⟨{ bit := some (bitFlag (s.src ra) imm.toNat) }, s.complete .ok 0, by constructor <;> simp, fun _ => rfl⟩
  | vlshift1 rd ra =>
    exact ⟨{ c := some (bitFlag (s.src ra) 383) }, (s.dst rd (2 * s.src ra)).complete .ok 0,
      by constructor <;> simp, fun _ => rfl⟩
  | vrshift1 rd ra =>
    exact ⟨{ c := some (bitFlag (s.src ra) 0) }, (s.dst rd (s.src ra / 2)).complete .ok 0,
      by constructor <;> simp, fun _ => rfl⟩
  | vadd rd ra rb =>
    exact ⟨{ c := some (carryFlag (s.src ra) (s.src rb)) }, (s.dst rd (s.src ra + s.src rb)).complete .ok 0,
      by constructor <;> simp, fun _ => rfl⟩
  | vsub rd ra rb =>
    exact ⟨{ c := some (borrowFlag (s.src ra) (s.src rb)) }, (s.dst rd (s.src ra + 2 ^ 384 - s.src rb)).complete .ok 0,
      by constructor <;> simp, fun _ => rfl⟩
  | vset | vnumbits =>
    simp only [exec, execVset, execVnumbits, State.withFlags_src, State.dst_withFlags]
    exact flagBlind_succeed _ 0
  | ldc | loadb =>
    simp only [exec, execLdc, execLoadb, State.withFlags_bufInt, State.dst_withFlags]
    exact flagBlind_guarded (flagBlind_succeed _ 0)
  | vmul | vsqr | redp =>
    simp only [exec, execVmul, execVsqr, execRedp, State.withFlags_src, State.withFlags_srcWide,
      State.dst_withFlags, State.dstWide_withFlags]
    exact flagBlind_guarded (flagBlind_succeed _ 0)
  | storeb | pcomp =>
    simp only [exec, execStoreb, execPcomp, State.withFlags_src, State.withFlags_srcAt, State.writeBuf_withFlags]
    exact flagBlind_guarded (flagBlind_succeed _ 0)
  | modadd | modsub | modmul | modsqr | modinv | modsqrt =>
    simp only [exec, execModadd, execModsub, execModmul, execModsqr, execModinv, execModsqrt, State.withFlags_src,
      State.dst_withFlags]
    exact flagBlind_reduced (flagBlind_succeed _ 0)
  | applyz | cozadd | cozaddc | lstep =>
    simp only [exec, execApplyz, execCozadd, execCozaddc, execLstep, State.withFlags_src, State.withFlags_srcAt,
      State.withFlags_srcPair, State.withFlags_srcPairAt, State.dstPair_withFlags, State.dstPairAt_withFlags]
    exact flagBlind_guarded (flagBlind_reduced (flagBlind_succeed _ 0))
  | jdbl =>
    simp only [exec, execJdbl, State.withFlags_srcAt, State.dstTriple_withFlags]
    exact flagBlind_guarded (flagBlind_reduced (flagBlind_ite (flagBlind_succeed _ 0) (flagBlind_succeed _ 0)))
  | smul =>
    simp only [exec, execSmul, State.withFlags_src, State.withFlags_srcAt, State.dstPair_withFlags]
    exact flagBlind_guarded (flagBlind_reduced (flagBlind_ite (flagBlind_raise _ _ 0)
      (flagBlind_ite (flagBlind_raise _ _ 0) (flagBlind_succeed _ 0))))
  | pdecomp rd imm =>
    simp only [exec, execPdecomp, State.withFlags_decompressAt, State.dstPair_withFlags]
    refine flagBlind_guarded ?_
    cases s.decompressAt imm.toNat with
    | none => exact flagBlind_raise s _ 0
    | some xy => exact flagBlind_succeed _ 0
  | keygen =>
    simp only [exec, execKeygen, State.withFlags_keygenSample, State.writeBuf_withFlags]
    exact flagBlind_afterSampling fun _ _ => flagBlind_succeed _ _
  | sign =>
    simp only [exec, execSign, State.withFlags_secret, State.withFlags_signSample, State.writeBuf_withFlags]
    cases s.secret with
    | none => exact flagBlind_raise s _ 0
    | some d => exact flagBlind_afterSampling fun _ _ => flagBlind_succeed _ _
  | verify =>
    simp only [exec, execVerify, State.withFlags_decompressAt, State.withFlags_bufInt]
    cases s.decompressAt pubOff with
    | none => exact ⟨{ vok := some false }, s.complete .malformed 0, by constructor <;> simp, fun _ => rfl⟩
    | some xy => exact ⟨{ vok := some _ }, s.complete .ok 0, by constructor <;> simp, fun _ => rfl⟩
  | ecdh =>
    simp only [exec, execEcdh, State.withFlags_secret, State.withFlags_decompressAt, State.withFlags_blindSample,
      State.writeBuf_withFlags]
    cases s.secret with
    | none => exact flagBlind_raise s _ 0
    | some d =>
      cases s.decompressAt pubOff with
      | none => exact flagBlind_raise s _ 0
      | some xy =>
        refine flagBlind_afterSampling fun _ count => ?_
        cases Point.mul d (.affine xy.1 xy.2) with
        | infinity => exact flagBlind_raise s _ count
        | affine sx sy => exact flagBlind_succeed _ count

/-- A command's answer from the flags a state has, beside its answer from any others. -/
theorem exec_withFlags {t : State} (h : exec i s = .next t) :
    ∃ (w : FlagWrites) (t' : State), w.Allowed i ∧ t = t'.withFlags (w.over s.ownFlags) ∧
      ∀ f, exec i (s.withFlags f) = .next (t'.withFlags (w.over f)) := by
  obtain ⟨w, t', hw, hrun⟩ := exec_flagBlind i s
  have hown : exec i (s.withFlags s.ownFlags) = _ := hrun s.ownFlags
  rw [State.withFlags_own] at hown
  exact ⟨w, t', hw, Host.Outcome.next.inj (h.symm.trans hown), hrun⟩

end Blind

/-! ### The claim -/

/-- Settles O14. Each command's writes to the flags are among those of its row, and the rest of its answer is the same
from any flags. -/
theorem flagsHaveOnlyTheirWriters : Obligations.FlagsHaveOnlyTheirWriters := by
  refine ⟨fun i s t hexec => ?writers, fun i s t z c bit vok cmp hexec => ?noReader, rfl⟩
  case writers =>
    obtain ⟨w, t', hw, rfl, -⟩ := exec_withFlags hexec
    exact ⟨fun h => hw.z (ne_none_of_getD_ne h), fun h => hw.c (ne_none_of_getD_ne h),
      fun h => hw.cmp (ne_none_of_getD_ne h), fun h => hw.bit (ne_none_of_getD_ne h),
      fun h => hw.vok (ne_none_of_getD_ne h)⟩
  case noReader =>
    obtain ⟨w, t', -, rfl, hrun⟩ := exec_withFlags hexec
    exact ⟨_, hrun ⟨z, c, cmp, bit, vok⟩, rfl, getD_eq_of_getD_ne, getD_eq_of_getD_ne, getD_eq_of_getD_ne,
      getD_eq_of_getD_ne, getD_eq_of_getD_ne⟩

end Sys2Proof.Machine

/-! # STATUS, host reads, and entropy words -/

namespace Sys2Proof.Machine

set_option exponentiation.threshold 1000

/-! ### The fields of STATUS (R32) -/

section Status

theorem bitNat_le_one (b : Bool) : bitNat b ≤ 1 := by cases b <;> decide

theorem errCodeNat_le (e : ErrCode) : errCodeNat e ≤ 6 := by cases e <;> decide

/-- A bit of a word, read off its value. -/
theorem getLsbD_eq_of_bitNat {n : Nat} {w : BitVec n} {k : Nat} {b : Bool} (h : w.toNat / 2 ^ k % 2 = bitNat b) :
    w.getLsbD k = b := by
  rw [← bitFlag_toNat, bitFlag, h]
  cases b <;> rfl

variable (s : State)

theorem State.busy_eq_decide : s.busy = decide (s.phase = .busy) := by
  rw [State.busy]
  cases s.phase <;> rfl

/-- Each field of STATUS in its place, and nothing above VOK or between OVR and ERR: each field's weight is above what
the fields below it can add up to (R32). -/
theorem State.statusWord_fields :
    s.statusWord.getLsbD 0 = s.busy ∧ s.statusWord.getLsbD 1 = s.done ∧ s.statusWord.getLsbD 2 = s.ovr ∧
      s.statusWord.toNat / 2 ^ 3 % 2 ^ 5 = 0 ∧ s.statusWord.toNat / 2 ^ 8 % 2 ^ 8 = errCodeNat s.err ∧
      s.statusWord.getLsbD 16 = s.z ∧ s.statusWord.getLsbD 17 = s.c ∧
      s.statusWord.toNat / 2 ^ 18 % 2 ^ 2 = s.cmp.toNat ∧ s.statusWord.getLsbD 20 = s.bit ∧
      s.statusWord.getLsbD 21 = s.vok ∧ s.statusWord.toNat < 2 ^ 22 := by
  have hbusy := bitNat_le_one s.busy
  have hdone := bitNat_le_one s.done
  have hovr := bitNat_le_one s.ovr
  have herr := errCodeNat_le s.err
  have hz := bitNat_le_one s.z
  have hc := bitNat_le_one s.c
  have hcmp := s.cmp.isLt
  have hbit := bitNat_le_one s.bit
  have hvok := bitNat_le_one s.vok
  have hword : s.statusWord.toNat =
      bitNat s.busy + bitNat s.done * 2 ^ 1 + bitNat s.ovr * 2 ^ 2 + errCodeNat s.err * 2 ^ 8 + bitNat s.z * 2 ^ 16 +
        bitNat s.c * 2 ^ 17 + s.cmp.toNat * 2 ^ 18 + bitNat s.bit * 2 ^ 20 + bitNat s.vok * 2 ^ 21 := by
    rw [State.statusWord, BitVec.toNat_ofNat]
    omega
  refine ⟨getLsbD_eq_of_bitNat ?_, getLsbD_eq_of_bitNat ?_, getLsbD_eq_of_bitNat ?_, ?_, ?_, getLsbD_eq_of_bitNat ?_,
    getLsbD_eq_of_bitNat ?_, ?_, getLsbD_eq_of_bitNat ?_, getLsbD_eq_of_bitNat ?_, ?_⟩
  all_goals omega

theorem State.hostRead_status : s.hostRead 0x010 8 = { s with rdata := s.statusWord } := by
  rw [State.hostRead, target_status]
  rfl

end Status

/-! ### Reads and the read-only registers (R31, R34, R65) -/

section Reads

variable (s : State)

theorem target_id : target 0x000 8 = .id := rfl

theorem target_draws : target 0x020 8 = .draws := rfl

theorem State.hostRead_id : s.hostRead 0x000 8 = { s with rdata := idWord } := by
  rw [State.hostRead, target_id]
  rfl

theorem State.hostRead_draws : s.hostRead 0x020 8 = { s with rdata := s.draws } := by
  rw [State.hostRead, target_draws]
  rfl

theorem State.hostWrite_id (d : Word64) : s.hostWrite 0x000 8 d = s := by rw [State.hostWrite, target_id]

theorem State.hostWrite_draws (d : Word64) : s.hostWrite 0x020 8 d = s := by rw [State.hostWrite, target_draws]

/-- While IDLE a host read changes the value handed over alone: none is unspecified (R65, R291). -/
theorem State.hostRead_of_idle (hidle : s.phase = .idle) (off : BitVec 12) (size : Nat) :
    ∃ rdata, s.hostRead off size = { s with rdata := rdata } := by
  rw [State.hostRead, State.busy_of_phase_idle hidle]
  cases target off size <;> exact ⟨_, rfl⟩

end Reads

/-! ### Entropy words and candidates (R62, R63) -/

section Entropy

variable {s : State} {w : Word64} {rest : List Event}

theorem step_of_entropyWord (hrst : s.rst = false) (henv : s.env = .entropyWord w :: rest) :
    step s = .next (s.past.offerEntropy w) := by
  rw [step_eq_runEvent_past henv, runEvent, State.past_rst, hrst]
  rfl

theorem State.offerEntropy_of_ready (hready : s.entReady = true) :
    s.offerEntropy w = State.driveEntReady { s with entropy := s.entropy ++ [w] } := if_pos hready

theorem State.offerEntropy_of_not_ready (hready : s.entReady = false) : s.offerEntropy w = s := by
  rw [State.offerEntropy, hready]
  rfl

/-- The value of two strings one after the other. -/
theorem be_append (str str' : List Byte) : be (str ++ str') = be str * 256 ^ str'.length + be str' := by
  rw [be, List.foldl_append, be_foldl, ← be]

/-- The 8-byte string of a word has the word's value. -/
theorem be_beBytes_word (e : Word64) : be (beBytes 8 e.toNat) = e.toNat := by
  rw [be_beBytes]
  exact Nat.mod_eq_of_lt e.isLt

theorem candidates_six (e0 e1 e2 e3 e4 e5 : Word64) (ws : List Word64) :
    candidates (e0 :: e1 :: e2 :: e3 :: e4 :: e5 :: ws) =
      be (beBytes 8 e0.toNat ++ beBytes 8 e1.toNat ++ beBytes 8 e2.toNat ++ beBytes 8 e3.toNat ++
        beBytes 8 e4.toNat ++ beBytes 8 e5.toNat) :: candidates ws := by
  simp only [candidates, be_append, be_beBytes_word, beBytes_length]
  refine congrArg (· :: candidates ws) ?_
  ring

theorem candidates_eq_nil {ws : List Word64} (h : ws.length < 6) : candidates ws = [] := by
  rw [← List.length_eq_zero_iff, candidates_length]
  omega

end Entropy

/-! ### The claims -/

/-- Settles O21. The fields are read off the word's value; a write is the host's return from a completion (R257). -/
theorem statusRegister : Obligations.StatusRegister := by
  refine ⟨fun s hr => ?read, fun s d hw => ?write⟩
  case read =>
    refine ⟨s.statusWord, ?_, ?_⟩
    · rw [step_of_hostReads hr, State.hostRead_status]
      rfl
    · obtain ⟨hbusy, hdone, hovr, hgap, herr, hfields⟩ := s.statusWord_fields
      rw [← s.busy_eq_decide]
      refine ⟨hbusy, hdone, hovr, hgap, herr.trans ?_, hfields⟩
      cases s.err <;> rfl
  case write =>
    rw [step_of_hostWrites hw, State.hostWrite_status]
    rfl

/-- Settles O25. A read only hands a value over, and ID and DRAWS are at two fixed offsets that a write leaves alone. -/
theorem readsAndReadOnlyRegisters : Obligations.ReadsAndReadOnlyRegisters := by
  refine ⟨fun s off size hr => ?reads, fun s hr => ?id, fun s hr => ?draws, fun s d hw => ?writes⟩
  case reads =>
    obtain ⟨rdata, reads, heq⟩ := s.past.hostRead_eq off size
    refine ⟨_, step_of_hostReads hr, ?_, fun hidle => ?_⟩
    · rw [heq]
    · obtain ⟨rdata', heq'⟩ := s.past.hostRead_of_idle hidle off size
      rw [heq', State.past_reads]
  case id =>
    rw [step_of_hostReads hr, State.hostRead_id]
    rfl
  case draws =>
    rw [step_of_hostReads hr, State.hostRead_draws]
    rfl
  case writes =>
    obtain hw | hw := hw
    · rw [step_of_hostWrites hw, State.hostWrite_id]
    · rw [step_of_hostWrites hw, State.hostWrite_draws]

/-- Settles O27. A transfer appends the word and recomputes ent_ready; six 64-bit words are 48 bytes, big-endian. -/
theorem entropyWordsMakeCandidates : Obligations.EntropyWordsMakeCandidates := by
  refine ⟨fun s w rest hrst henv => ⟨fun hready => ?transfer, fun hready => ?none⟩, candidates_six,
    fun ws hlen => candidates_eq_nil hlen⟩
  case transfer =>
    have hstep := step_of_entropyWord hrst henv
    rw [State.offerEntropy_of_ready (s := s.past) hready] at hstep
    exact ⟨_, hstep, rfl, rfl⟩
  case none => rw [step_of_entropyWord hrst henv, State.offerEntropy_of_not_ready (s := s.past) hready]

end Sys2Proof.Machine

/-! # Field and scalar arithmetic: MODMUL, MODSQR, MODINV, and what FastReduce gives -/

namespace Sys2Proof.Machine

set_option exponentiation.threshold 1000

/-! ### The closed form of FastReduce (R133, R139) -/

section FastReduce

variable {x y r : Nat}

/-- The fold loop keeps the residue mod p, and takes no value but 0 to 0. -/
theorem FoldsTo.mod_eq (h : FoldsTo x y) : y % fieldPrime = x % fieldPrime ∧ (y = 0 ↔ x = 0) := by
  induction h with
  | stop x _ => exact ⟨rfl, Iff.rfl⟩
  | turn x y hhigh _ ih =>
    obtain ⟨hmod, hzero⟩ := ih
    have hfolded : 0 < omega * (x / 2 ^ 384) := Nat.mul_pos (by decide) (Nat.pos_of_ne_zero hhigh)
    refine ⟨hmod.trans (fold_modEq x), hzero.trans ?_⟩
    omega

/-- The strict subtraction loop keeps the residue mod p, and takes no value but 0 to 0. -/
theorem SubtractsTo.mod_eq (h : SubtractsTo x y) : y % fieldPrime = x % fieldPrime ∧ (y = 0 ↔ x = 0) := by
  induction h with
  | stop x _ => exact ⟨rfl, Iff.rfl⟩
  | turn x y habove _ ih =>
    obtain ⟨hmod, hzero⟩ := ih
    refine ⟨hmod.trans (Nat.mod_eq_sub_mod habove.le).symm, hzero.trans ?_⟩
    omega

/-- What the two loops of FastReduce end at: 0 for 0, p for another multiple of p, the residue otherwise (R139). -/
theorem ReducesTo.eq_closedForm (h : ReducesTo x r) :
    r = if x = 0 then 0 else if x % fieldPrime = 0 then fieldPrime else x % fieldPrime := by
  have hle := h.le_fieldPrime
  obtain ⟨y, hfold, hsub⟩ := h
  have hmod : r % fieldPrime = x % fieldPrime := hsub.mod_eq.1.trans hfold.mod_eq.1
  have hzero : r = 0 ↔ x = 0 := hsub.mod_eq.2.trans hfold.mod_eq.2
  rw [← hmod]
  split_ifs with hx hmultiple
  · exact hzero.2 hx
  · have hr : r ≠ 0 := mt hzero.1 hx
    exact Nat.le_antisymm hle (Nat.le_of_dvd (Nat.pos_of_ne_zero hr) (Nat.dvd_of_mod_eq_zero hmultiple))
  · have hne : r ≠ fieldPrime := by
      rintro rfl
      exact hmultiple (Nat.mod_self _)
    exact (Nat.mod_eq_of_lt (lt_of_le_of_ne hle hne)).symm

/-- FastReduce of a product of reduced values is canonical: p is prime, so only 0 is a product that p divides (R135). -/
theorem fastReduce_mul {a b : Nat} (ha : a < fieldPrime) (hb : b < fieldPrime) :
    fastReduce (a * b) = a * b % fieldPrime := by
  have hbits : a * b < 2 ^ 768 :=
    Nat.mul_lt_mul'' (c := 2 ^ 384) (d := 2 ^ 384) (ha.trans fieldPrime_lt) (hb.trans fieldPrime_lt)
  have hmultiple : a * b % fieldPrime = 0 → a * b = 0 := by
    intro h
    rw [Nat.mul_eq_zero]
    exact (fieldPrime_prime.dvd_mul.1 (Nat.dvd_of_mod_eq_zero h)).imp (Nat.eq_zero_of_dvd_of_lt · ha)
      (Nat.eq_zero_of_dvd_of_lt · hb)
  rw [(reducesTo_fastReduce hbits).eq_closedForm]
  split_ifs with hzero hmod
  · rw [hzero, Nat.zero_mod]
  · exact absurd (hmultiple hmod) hzero
  · rfl

theorem modMul_eq_mod {m : Modulus} {a b : Nat} (ha : a < modulusValue m) (hb : b < modulusValue m) :
    modMul m a b = a * b % modulusValue m := by
  cases m with
  | p => exact fastReduce_mul ha hb
  | n => rfl

end FastReduce

/-! ### BinInv runs the loop of R141 -/

section BinInv

/-- The loop on a count, as long as there is a turn for each bit of a·b, is the loop of R141. -/
theorem invertsTo_binInvLoop (m fuel : Nat) :
    ∀ {a b u v : Nat}, 0 < a → 0 < b → a * b < 2 ^ fuel → InvertsTo m a b u v (binInvLoop m fuel a b u v) := by
  induction fuel with
  | zero =>
    intro a b u v ha hb hfuel
    have := Nat.mul_pos ha hb
    omega
  | succ fuel ih =>
    intro a b u v ha hb hfuel
    rw [binInvLoop]
    split_ifs with heq haeven hbeven hlt
    · subst heq
      exact .stop a u v
    · exact .aEven a b u v _ heq haeven (ih (by omega) hb (mul_lt_two_pow_of_halved hfuel (by omega)))
    · exact .bEven a b u v _ heq (by omega) hbeven
        (ih ha (by omega) (mul_lt_two_pow_of_halved_right hfuel (by omega)))
    · exact .aAbove a b u v _ heq (by omega) (by omega) hlt
        (ih (by omega) hb (mul_lt_two_pow_of_halved hfuel (by omega)))
    · exact .bAbove a b u v _ heq (by omega) (by omega) (by omega)
        (ih ha (by omega) (mul_lt_two_pow_of_halved_right hfuel (by omega)))

theorem modulusValue_prime (m : Modulus) : (modulusValue m).Prime := by
  cases m with
  | p => exact fieldPrime_prime
  | n => exact groupOrder_prime

variable {m : Modulus} {x : Nat} (hx : x ≠ 0) (hxm : x < modulusValue m)

include hx hxm

theorem invertsTo_binInv : InvertsTo (modulusValue m) x (modulusValue m) 1 0 (binInv x (modulusValue m)) := by
  rw [binInv, if_neg hx]
  refine invertsTo_binInvLoop _ 768 (Nat.pos_of_ne_zero hx) (modulusValue_pos m) ?_
  exact Nat.mul_lt_mul'' (c := 2 ^ 384) (d := 2 ^ 384) (hxm.trans (modulusValue_lt m)) (modulusValue_lt m)

/-- BinInv inverts every nonzero residue of either modulus, both being prime (R140). -/
theorem binInv_modulus_inverts :
    binInv x (modulusValue m) < modulusValue m ∧ x * binInv x (modulusValue m) % modulusValue m = 1 := by
  have hprime := modulusValue_prime m
  obtain ⟨hlt, hinv⟩ := binInv_inverts (modulusValue_odd m) (modulusValue_lt m) hx hxm
    (Nat.coprime_of_lt_prime hx hxm hprime).symm
  refine ⟨hlt, ?_⟩
  have hcast : ((x * binInv x (modulusValue m) : Nat) : ZMod (modulusValue m)) = (1 : Nat) := by
    rw [Nat.cast_mul, hinv, Nat.cast_one]
  rw [(ZMod.natCast_eq_natCast_iff' _ _ _).1 hcast, Nat.mod_eq_of_lt hprime.one_lt]

end BinInv

/-! ### What running each command answers -/

section Answers

variable (rd ra rb : Reg) (m : Modulus) (s : State)

theorem exec_modmul_eq : exec (.modmul rd ra rb m) s = reduced (modulusValue m) [s.src ra, s.src rb] s
    (succeed 0 (s.dst rd (modMul m (s.src ra) (s.src rb)))) := rfl

theorem exec_modsqr_eq : exec (.modsqr rd ra m) s = reduced (modulusValue m) [s.src ra] s
    (succeed 0 (s.dst rd (modMul m (s.src ra) (s.src ra)))) := rfl

theorem exec_modinv_eq : exec (.modinv rd ra m) s = reduced (modulusValue m) [s.src ra] s
    (succeed 0 (s.dst rd (binInv (s.src ra) (modulusValue m)))) := rfl

end Answers

/-! ### The claims -/

/-- Settles O37. Both loops keep the residue mod p and whether the value is 0, and the second ends at most at p. -/
theorem fastReduceClosedForm : Obligations.FastReduceClosedForm :=
  ⟨fun _ hx => ⟨_, reducesTo_fastReduce hx⟩, fun _ _ h => h.eq_closedForm⟩

/-- Settles O35. The range check splits the cases; FastReduce could leave p only for a nonzero multiple of p, which no
product of reduced sources is. -/
theorem modularMultiplyAndSquare : Obligations.ModularMultiplyAndSquare := by
  intro rd ra rb m s
  have hfits : ∀ x, x % modulusValue m < 2 ^ 384 := fun x =>
    (Nat.mod_lt x (modulusValue_pos m)).trans (modulusValue_lt m)
  refine ⟨⟨decode_encode_of_wellFormed (i := .modmul rd ra rb m) rfl,
      fun h => State.fails_of_exec_eq_reduced (exec_modmul_eq rd ra rb m s) (by simpa using h), fun ha hb => ?modmul⟩,
    ⟨decode_encode_of_wellFormed (i := .modsqr rd ra m) rfl,
      fun h => State.fails_of_exec_eq_reduced (exec_modsqr_eq rd ra m s) (by simpa using h), fun ha => ?modsqr⟩⟩
  case modmul =>
    have hexec := (exec_modmul_eq rd ra rb m s).trans (reduced_of_lt (by simp [ha, hb]) s _)
    refine ⟨_, hexec, s.succeeds_dst rd _, by simp, ?_⟩
    rw [State.src_complete, modMul_eq_mod ha hb, s.src_dst_of_lt rd (hfits _)]
  case modsqr =>
    have hexec := (exec_modsqr_eq rd ra m s).trans (reduced_of_lt (by simp [ha]) s _)
    refine ⟨_, hexec, s.succeeds_dst rd _, by simp, ?_⟩
    rw [State.src_complete, modMul_eq_mod ha ha, s.src_dst_of_lt rd (hfits _)]

/-- Settles O38. The counted loop has a turn for each bit of a·b, and ends where the loop of R141 does; its invariant
makes that the inverse. -/
theorem modularInverse : Obligations.ModularInverse := by
  intro rd ra m s
  refine ⟨decode_encode_of_wellFormed (i := .modinv rd ra m) rfl,
    fun h => State.fails_of_exec_eq_reduced (exec_modinv_eq rd ra m s) (by simpa using h), fun ha => ?_⟩
  have hexec := (exec_modinv_eq rd ra m s).trans (reduced_of_lt (by simp [ha]) s _)
  refine ⟨_, hexec, s.succeeds_dst rd _, by simp, fun hzero => ?zero, fun hne => ?inverse⟩
  case zero => rw [State.src_complete, hzero, binInv, if_pos rfl, s.src_dst_of_lt rd (by decide)]
  case inverse =>
    obtain ⟨hlt, hinv⟩ := binInv_modulus_inverts hne ha
    rw [State.src_complete, s.src_dst_of_lt rd (hlt.trans (modulusValue_lt m))]
    exact ⟨invertsTo_binInv hne ha, hlt, hinv⟩

end Sys2Proof.Machine

/-! # Points in BUF: PDECOMP, and the round trips of the byte strings -/

namespace Sys2Proof.Machine

set_option exponentiation.threshold 1000

/-! ### A compressed point written and read (R204, R205, R207) -/

section Compressed

variable {s : State} {off x y : Nat}

theorem State.HoldsPoint.complete (h : s.HoldsPoint off x y) (code : ErrCode) (count : Nat) :
    (s.complete code count).HoldsPoint off x y :=
  ⟨h.pre, h.xBytes, h.xReduced, h.yBound, h.root⟩

/-- The string PCOMP writes for a reduced curve point is the compressed form of that point. -/
theorem State.holdsPoint_writeBuf (hwf : s.buf.wf = true) (hoff : off ≤ 463) (hx : x < fieldPrime)
    (hy : y < fieldPrime) (hcurve : curveEquation x y) :
    (s.writeBuf off (parityPrefix y :: be48 x)).HoldsPoint off x y where
  pre := by
    rw [State.read_writeBuf_head hwf (Nat.lt_of_le_of_lt hoff (by decide)), parityPrefix_toNat]
  xBytes := by
    rw [State.writeBuf_cons]
    exact State.bufInt_writeBuf_same (State.wf_writeBuf hwf) (Nat.succ_le_succ hoff) (hx.trans fieldPrime_lt)
  xReduced := hx
  yBound := hy.le
  root := hcurve

/-- Strings that read back as they are written change nothing. -/
theorem Memory.writeString_readString {m : Memory} (hwf : m.wf = true) {k : Nat} (hoff : off + k ≤ bufSize) :
    m.writeString off (m.readString off k) = m := by
  refine Memory.ext (Memory.wf_writeString hwf off _) hwf fun a => ?_
  by_cases ha : off ≤ a ∧ a < off + k
  · obtain ⟨t, rfl⟩ := Nat.exists_eq_add_of_le ha.1
    have ht : t < (m.readString off k).length := by
      rw [readString_length]
      omega
    rw [Memory.read_writeString_inside hwf off t _ ht (by rwa [readString_length])]
    simp [Memory.readString]
  · rw [Memory.read_writeString_outside hwf off a _ (by rw [readString_length]; omega)]

/-- The 48-byte string of the integer at an offset is what stands there (R15). -/
theorem State.be48_bufInt (s : State) (off : Nat) : be48 (s.bufInt off) = s.buf.readString off 48 := by
  have h := beBytes_be (s.buf.readString off 48)
  rwa [readString_length] at h

/-- The compressed form of the point that BUF holds is what stands there. -/
theorem State.HoldsPoint.writeString (h : s.HoldsPoint off x y) (hwf : s.buf.wf = true) (hoff : off ≤ 463) :
    s.buf.writeString off (parityPrefix y :: be48 x) = s.buf := by
  have hpre : parityPrefix y = s.buf.read off := BitVec.eq_of_toNat_eq (by rw [parityPrefix_toNat, h.pre])
  have hfits : off + 49 ≤ bufSize := Nat.add_le_add_right hoff 49
  have hstring : parityPrefix y :: be48 x = s.buf.readString off 49 := by
    rw [hpre, ← h.xBytes, State.be48_bufInt]
    simp [Memory.readString, List.range_succ_eq_map, Nat.add_assoc, Nat.add_comm 1]
  rw [hstring, Memory.writeString_readString hwf hfits]

end Compressed

/-! ### What running PDECOMP answers -/

section Answers

variable {rd : Reg} {imm : Imm} {s : State} (h : rd.toNat ≤ 14 ∧ imm.toNat ≤ 463)

include h

theorem exec_pdecomp_of_none (hnone : s.decompressAt imm.toNat = none) :
    exec (.pdecomp rd imm) s = .next (s.complete .malformed 0) := by
  have hexec : exec (.pdecomp rd imm) s = _ :=
    guarded_of_wellFormed (i := .pdecomp rd imm) (pairAndImm_wellFormed_iff.2 h) s _
  rw [hexec, hnone, raise_eq]

/-- PDECOMP leaves the curve point whose compressed form BUF holds in its pair (R206). -/
theorem exec_pdecomp_of_holdsPoint {x y : Nat} (hpoint : s.HoldsPoint imm.toNat x y) :
    exec (.pdecomp rd imm) s = .next ((s.dstPair rd (x, y)).complete .ok 0) ∧
      (s.dstPair rd (x, y)).srcPair rd = (x, y) := by
  have hexec : exec (.pdecomp rd imm) s = _ :=
    guarded_of_wellFormed (i := .pdecomp rd imm) (pairAndImm_wellFormed_iff.2 h) s _
  rw [State.decompressAt_eq_some_iff.2 hpoint] at hexec
  obtain ⟨hx, hy, -⟩ := hpoint.onE
  exact ⟨hexec, s.srcPair_dstPair_same rd h.1 ⟨hx, hy⟩⟩

end Answers

/-! ### The claims -/

/-- Settles O48. Decompression answers exactly with the curve points, and each fits the destination pair. -/
theorem pdecompReadsTheCurvePoint : Obligations.PdecompReadsTheCurvePoint := by
  intro rd imm s legal
  refine ⟨decode_encode_of_iff (i := .pdecomp rd imm) pairAndImm_wellFormed_iff, fun h =>
    ⟨fun hnone => ?malformed, fun x y hpoint => ?point⟩⟩
  case malformed =>
    exact ⟨_, exec_pdecomp_of_none h (State.decompressAt_eq_none hnone), s.failsTo_complete .malformed 0 (by decide)⟩
  case point =>
    obtain ⟨hexec, hpair⟩ := exec_pdecomp_of_holdsPoint h hpoint
    obtain ⟨hx, hy⟩ := Prod.ext_iff.1 hpair
    exact ⟨_, hexec, s.succeeds_dstPair rd _, by simp, hx, hy⟩

/-- Settles O49. Each second command reads what the first wrote: the point, the string or the integer it stands for. -/
theorem byteRoundTrips : Obligations.ByteRoundTrips := by
  refine ⟨fun ra rd imm s hra hrd himm hwf hx hy hcurve => ?pcompPdecomp,
    fun rd imm s x y hrd himm hwf hpoint => ?pdecompPcomp, fun rd imm s himm hwf => ?loadbStoreb,
    fun ra rd imm s himm hwf => ?storebLoadb⟩
  case pcompPdecomp =>
    have hheld := (State.holdsPoint_writeBuf hwf himm hx hy hcurve).complete .ok 0
    obtain ⟨hexec, hpair⟩ := exec_pdecomp_of_holdsPoint ⟨hrd, himm⟩ hheld
    obtain ⟨hx', hy'⟩ := Prod.ext_iff.1 hpair
    exact ⟨_, _, exec_pcomp ra imm s ⟨hra, himm⟩, hexec, rfl, hx', hy'⟩
  case pdecompPcomp =>
    obtain ⟨hexec, hpair⟩ := exec_pdecomp_of_holdsPoint ⟨hrd, himm⟩ hpoint
    obtain ⟨hx, hy⟩ := Prod.ext_iff.1 hpair
    refine ⟨_, _, hexec, exec_pcomp rd imm _ ⟨hrd, himm⟩, rfl, ?_⟩
    rw [State.srcAt_complete, State.srcAt_complete]
    refine Eq.trans ?_ (hpoint.writeString hwf himm)
    exact congrArg₂ (fun x y => s.buf.writeString imm.toNat (parityPrefix y :: be48 x)) hx hy
  case loadbStoreb =>
    have hfits : s.bufInt imm.toNat < 2 ^ 384 := s.bufInt_lt imm.toNat
    refine ⟨_, _, exec_loadb rd imm s himm, exec_storeb rd imm _ himm, rfl, ?_⟩
    rw [State.src_complete, s.src_dst_of_lt rd hfits, State.be48_bufInt]
    exact Memory.writeString_readString hwf (Nat.add_le_add_right himm 48)
  case storebLoadb =>
    have hread := State.bufInt_writeBuf_same hwf himm (s.src_lt ra)
    refine ⟨_, _, exec_storeb ra imm s himm, exec_loadb rd imm _ himm, rfl, ?_⟩
    rw [State.bufInt_complete, hread, State.src_complete, State.src_dst_of_lt _ rd (s.src_lt ra)]

end Sys2Proof.Machine

/-! # VERIFY, and what SIGN and ECDH achieve between two parties -/

namespace Sys2Proof.Machine

set_option exponentiation.threshold 1000

/-! ### Multiples mod n (R13, R16) -/

section Multiples

variable [Fact fieldPrime.Prime]

/-- Multiples of a point of E depend on the scalar mod n alone, n being the order of the group (R13). -/
theorem nsmul_eq_of_modEq (Q : WeierstrassCurve.Affine.Point curve) {a b : Nat} (h : a ≡ b [MOD groupOrder]) :
    a • Q = b • Q :=
  nsmul_eq_nsmul_iff_modEq.2 (h.of_dvd (card_curve ▸ addOrderOf_dvd_natCard Q))

theorem Point.mul_ofGroup (Q : WeierstrassCurve.Affine.Point curve) {k : Nat} (hk : k < 2 ^ 384) :
    Point.mul k (Point.ofGroup Q) = Point.ofGroup (k • Q) := Point.mulLoop_ofGroup Q 384 hk

end Multiples

section Points

variable {P : Point} {a b c d : Nat}

/-- [a]P + [b][d]P is [c]P where a + b·d ≡ c (mod n). -/
theorem Point.mul_add_mul_mul (hP : P.onE) (ha : a < 2 ^ 384) (hb : b < 2 ^ 384) (hc : c < 2 ^ 384) (hd : d < 2 ^ 384)
    (h : a + b * d ≡ c [MOD groupOrder]) :
    (Point.mul a P).add (Point.mul b (Point.mul d P)) = Point.mul c P := by
  have := Fact.mk fieldPrime_prime
  obtain ⟨Q, rfl⟩ := Point.exists_ofGroup_of_onE hP
  rw [Point.mul_ofGroup Q ha, Point.mul_ofGroup Q hd, Point.mul_ofGroup _ hb, Point.mul_ofGroup Q hc,
    ← Point.ofGroup_add, ← mul_nsmul', ← add_nsmul, nsmul_eq_of_modEq Q h]

/-- Multiples commute. -/
theorem Point.mul_mul_comm (hP : P.onE) (ha : a < 2 ^ 384) (hb : b < 2 ^ 384) :
    Point.mul a (Point.mul b P) = Point.mul b (Point.mul a P) := by
  have := Fact.mk fieldPrime_prime
  obtain ⟨Q, rfl⟩ := Point.exists_ofGroup_of_onE hP
  rw [Point.mul_ofGroup Q ha, Point.mul_ofGroup Q hb, Point.mul_ofGroup _ ha, Point.mul_ofGroup _ hb, nsmul_left_comm]

end Points

/-! ### Inverses mod n (R140, R230) -/

section Inverses

variable {sg w w' : Nat}

theorem mul_binInv_groupOrder (h : 1 ≤ sg ∧ sg < groupOrder) : sg * binInv sg groupOrder % groupOrder = 1 :=
  (binInv_modulus_inverts (m := .n) (Nat.one_le_iff_ne_zero.1 h.1) h.2).2

theorem cast_mul_eq_one (h : sg * w % groupOrder = 1) : (sg * w : ZMod groupOrder) = 1 := by
  rw [← Nat.cast_mul, ← ZMod.natCast_mod, h, Nat.cast_one]

/-- Inverses mod n give the same products. -/
theorem mul_mod_eq_of_inverses (h : sg * w % groupOrder = 1) (h' : sg * w' % groupOrder = 1) (a : Nat) :
    a * w % groupOrder = a * w' % groupOrder := by
  have hw : (w : ZMod groupOrder) = w' :=
    left_inv_eq_right_inv ((mul_comm _ _).trans (cast_mul_eq_one h)) (cast_mul_eq_one h')
  rw [← ZMod.natCast_eq_natCast_iff', Nat.cast_mul, Nat.cast_mul, hw]

theorem mod_groupOrder_lt (a : Nat) : a % groupOrder < 2 ^ 384 :=
  (Nat.mod_lt a groupOrder_pos).trans (modulusValue_lt .n)

end Inverses

/-! ### The decision of VERIFY (R229, R230) -/

section Decision

variable {q : Point} {e r sg : Nat}

theorem verifyEquation_iff : verifyEquation q e r sg = true ↔ ∃ x' y',
    (Point.mul (e * binInv sg groupOrder % groupOrder) generator).add
      (Point.mul (r * binInv sg groupOrder % groupOrder) q) = .affine x' y' ∧ x' % groupOrder = r := by
  rw [verifyEquation]
  cases (Point.mul (e * binInv sg groupOrder % groupOrder) generator).add
    (Point.mul (r * binInv sg groupOrder % groupOrder) q) with
  | infinity => simp
  | affine x y => simp

theorem inBounds_iff : inBounds r sg = true ↔ (1 ≤ r ∧ r < groupOrder) ∧ 1 ≤ sg ∧ sg < groupOrder := by
  rw [inBounds, Bool.and_eq_true, isScalar_iff, isScalar_iff]

/-- The equation holds with the computed inverse of s where it holds with any (R230). -/
theorem verifyEquation_iff_of_scalar (hsg : 1 ≤ sg ∧ sg < groupOrder) : verifyEquation q e r sg = true ↔
    ∃ w x' y', sg * w % groupOrder = 1 ∧
      (Point.mul (e * w % groupOrder) generator).add (Point.mul (r * w % groupOrder) q) = .affine x' y' ∧
        x' % groupOrder = r := by
  have hinv := mul_binInv_groupOrder hsg
  rw [verifyEquation_iff]
  constructor
  · rintro ⟨x', y', hsum, hr⟩
    exact ⟨_, x', y', hinv, hsum, hr⟩
  · rintro ⟨w, x', y', hw, hsum, hr⟩
    rw [mul_mod_eq_of_inverses hw hinv e, mul_mod_eq_of_inverses hw hinv r] at hsum
    exact ⟨x', y', hsum, hr⟩

end Decision

/-! ### What running VERIFY answers -/

section Answers

variable {s : State}

theorem exec_verify_of_none (h : ¬∃ x y, s.HoldsPoint 0x000 x y) :
    exec .verify s = .next ((s.setVok false).complete .malformed 0) := by
  rw [exec, execVerify, pubOff, State.decompressAt_eq_none h, raise_eq]

theorem exec_verify_of_holdsPoint {x y : Nat} (h : s.HoldsPoint 0x000 x y) :
    exec .verify s = .next ((s.setVok (inBounds (s.bufInt 0x0C0) (s.bufInt 0x0F0) &&
      verifyEquation (.affine x y) (s.bufInt 0x080) (s.bufInt 0x0C0) (s.bufInt 0x0F0))).complete .ok 0) := by
  rw [exec, execVerify, pubOff, State.decompressAt_eq_some_iff.2 h]
  rfl

end Answers

/-! ### A SIGN that succeeds (R225) -/

section Signing

variable {s t : State}

/-- A secret outside [1, n − 1] is refused, any other is taken (R223). -/
theorem State.secret_cases (s : State) : s.secret = none ∨
    (s.secret = some (s.bufInt 0x040) ∧ 1 ≤ s.bufInt 0x040 ∧ s.bufInt 0x040 < groupOrder) := by
  by_cases h : s.bufInt 0x040 = 0 ∨ groupOrder ≤ s.bufInt 0x040
  · exact .inl (State.secret_eq_none h)
  · have hlow : 1 ≤ s.bufInt 0x040 := by omega
    have hhigh : s.bufInt 0x040 < groupOrder := by omega
    exact .inr ⟨State.secret_eq_some hlow hhigh, hlow, hhigh⟩

/-- A drawing command that completes with no error has kept a candidate. -/
theorem kept_of_afterSampling {α : Type} {keep : Nat → Option α} {cs : List Nat}
    {onKept : α → Nat → Host.Outcome State Fault Refusal} (hbusy : s.phase = .busy)
    (h : afterSampling (sample keep cs 0) s onKept = .next t) (hidle : t.phase = .idle) (hok : t.err = .ok) :
    ∃ a count, (∃ c ∈ cs, keep c = some a) ∧ onKept a count = .next t := by
  obtain ⟨a, count, hkept, ht⟩ | ⟨count, -, rfl⟩ | ⟨-, rfl⟩ := afterSampling_cases h
  · obtain ⟨-, -, -, hc⟩ := sample_kept (Nat.zero_le _) hkept
    exact ⟨a, count, hc, ht⟩
  · nomatch hok
  · nomatch hbusy.symm.trans hidle

/-- The nonce behind a kept pair (r, s): r and s are those of R225, and neither is 0. -/
theorem signKeep_cases {d e c r sg : Nat} (h : signKeep d e c = some (r, sg)) :
    (1 ≤ c ∧ c < groupOrder) ∧ r = (Point.mul c generator).x % groupOrder ∧
      sg = (e + r * d) * binInv c groupOrder % groupOrder ∧ r ≠ 0 ∧ sg ≠ 0 := by
  rw [signKeep] at h
  dsimp only at h
  split_ifs at h with hscalar hzero
  obtain ⟨rfl, rfl⟩ := Prod.mk.inj (Option.some.inj h)
  obtain ⟨hr, hsg⟩ := not_or.1 hzero
  exact ⟨isScalar_iff.1 hscalar, rfl, rfl, hr, hsg⟩

/-- What a SIGN that completes with no error has written: a kept pair, over SIG. -/
theorem sign_of_ok (hbusy : s.phase = .busy) (h : exec .sign s = .next t) (hidle : t.phase = .idle)
    (hok : t.err = .ok) : ∃ c r sg count, s.bufInt 0x040 < groupOrder ∧
      signKeep (s.bufInt 0x040) (s.bufInt 0x080) c = some (r, sg) ∧
        t = ((s.writeBuf 0x0C0 (be48 r)).writeBuf 0x0F0 (be48 sg)).complete .ok count := by
  obtain hnone | ⟨hsome, -, hhigh⟩ := s.secret_cases
  · obtain ⟨t', hexec, hcompletes, -⟩ := sign_fails_malformed hnone
    obtain rfl := Host.Outcome.next.inj (h.symm.trans hexec)
    nomatch hcompletes.err.symm.trans hok
  · rw [exec_sign_of_secret hsome] at h
    obtain ⟨⟨r, sg⟩, count, ⟨c, -, hc⟩, ht⟩ := kept_of_afterSampling hbusy h hidle hok
    exact ⟨c, r, sg, count, hhigh, hc, (Host.Outcome.next.inj ht).symm⟩

/-- With the s of SIGN, u1 + u2·d is the nonce mod n (R225, R230). -/
theorem nonce_of_signature {c d e r sg : Nat} (hc : 1 ≤ c ∧ c < groupOrder) (hsgn : 1 ≤ sg ∧ sg < groupOrder)
    (hsg : sg = (e + r * d) * binInv c groupOrder % groupOrder) :
    e * binInv sg groupOrder % groupOrder + r * binInv sg groupOrder % groupOrder * d ≡ c [MOD groupOrder] := by
  have hw := cast_mul_eq_one (mul_binInv_groupOrder hsgn)
  have hk := cast_mul_eq_one (mul_binInv_groupOrder hc)
  have hcast : (sg : ZMod groupOrder) = (e + r * d) * binInv c groupOrder := by
    rw [hsg, ZMod.natCast_mod]
    push_cast
    rfl
  rw [← ZMod.natCast_eq_natCast_iff]
  push_cast [ZMod.natCast_mod]
  linear_combination (c : ZMod groupOrder) * hw - binInv sg groupOrder * (e + r * d) * hk -
    binInv sg groupOrder * c * hcast

/-- The equation of VERIFY holds of what SIGN computes, and r and s are in its bounds (R229, R230). -/
theorem verify_of_signKeep {d e c r sg : Nat} (hd : d < groupOrder) (h : signKeep d e c = some (r, sg)) :
    inBounds r sg = true ∧ verifyEquation (Point.mul d generator) e r sg = true := by
  obtain ⟨hc, hr, hsg, hr0, hsg0⟩ := signKeep_cases h
  obtain ⟨x', y', hmul, -⟩ := Point.exists_mul_eq_affine Point.generator_onE Point.affine_ne_infinity hc.1 hc.2
  have hrn : 1 ≤ r ∧ r < groupOrder := ⟨Nat.one_le_iff_ne_zero.2 hr0, hr ▸ Nat.mod_lt _ groupOrder_pos⟩
  have hsgn : 1 ≤ sg ∧ sg < groupOrder := ⟨Nat.one_le_iff_ne_zero.2 hsg0, hsg ▸ Nat.mod_lt _ groupOrder_pos⟩
  have hsum := Point.mul_add_mul_mul Point.generator_onE (mod_groupOrder_lt _) (mod_groupOrder_lt _)
    (hc.2.trans (modulusValue_lt .n)) (hd.trans (modulusValue_lt .n)) (nonce_of_signature hc hsgn hsg)
  refine ⟨inBounds_iff.2 ⟨hrn, hsgn⟩, verifyEquation_iff.2 ⟨x', y', hsum.trans hmul, ?_⟩⟩
  rw [hr, hmul, Point.x]

/-- SIG is written above PUB, so the public key that BUF holds stays (R59). -/
theorem State.HoldsPoint.writeBuf {s : State} {x y off : Nat} {str : List Byte} (h : s.HoldsPoint 0x000 x y)
    (hwf : s.buf.wf = true) (hoff : 49 ≤ off) : (s.writeBuf off str).HoldsPoint 0x000 x y where
  pre := by rw [State.read_writeBuf_outside hwf (.inl (by omega)), h.pre]
  xBytes := by rw [State.bufInt_writeBuf_disjoint hwf (.inl hoff), h.xBytes]
  xReduced := h.xReduced
  yBound := h.yBound
  root := h.root

end Signing

/-! ### An ECDH that succeeds (R233) -/

/-- An ECDH that completes with no error has written the x-coordinate of [d]Q, whatever the blinding value. -/
theorem ecdh_of_ok {s t : State} {x y : Nat} (hwf : s.buf.wf = true) (hbusy : s.phase = .busy)
    (hpub : s.HoldsPoint 0x000 x y) (h : exec .ecdh s = .next t) (hidle : t.phase = .idle) (hok : t.err = .ok) :
    t.bufInt 0x140 = (Point.mul (s.bufInt 0x040) (.affine x y)).x := by
  obtain hnone | ⟨hsome, hlow, hhigh⟩ := s.secret_cases
  · obtain ⟨t', hexec, hcompletes, -⟩ := ecdh_fails_malformed (.inl hnone)
    obtain rfl := Host.Outcome.next.inj (h.symm.trans hexec)
    nomatch hcompletes.err.symm.trans hok
  · obtain ⟨sx, sy, hmul, hsx⟩ := Point.exists_mul_eq_affine hpub.onE Point.affine_ne_infinity hlow hhigh
    rw [exec_ecdh_of_inputs hsome hpub hmul] at h
    obtain ⟨z0, count, -, ht⟩ := kept_of_afterSampling hbusy h hidle hok
    obtain rfl := Host.Outcome.next.inj ht
    rw [State.bufInt_complete, State.bufInt_writeBuf_same hwf (by decide) (hsx.trans fieldPrime_lt), hmul, Point.x]

/-! ### The claims -/

/-- Settles O52. VERIFY's two tests are the bounds and the equation with the computed inverse of s, which is as good as
any other. -/
theorem verifyDecidesTheSignature : Obligations.VerifyDecidesTheSignature := by
  refine ⟨rfl, fun s => ⟨fun hnone => ?malformed, fun x y hpub => ?decides⟩⟩
  case malformed =>
    exact ⟨_, exec_verify_of_none hnone,
      State.completesTo_complete .malformed 0 (by decide) rfl rfl rfl rfl rfl rfl rfl, fun _ _ _ => rfl, fun _ => rfl,
      rfl⟩
  case decides =>
    refine ⟨_, exec_verify_of_holdsPoint hpub, s.succeeds_flags _ _ _ _ _, rfl, ?_⟩
    rw [State.complete_vok, State.setVok_vok, Bool.and_eq_true, inBounds_iff]
    constructor
    · rintro ⟨⟨hr, hsg⟩, heq⟩
      exact ⟨hr.1, hr.2, hsg.1, hsg.2, (verifyEquation_iff_of_scalar hsg).1 heq⟩
    · rintro ⟨hr1, hrn, hsg1, hsgn, heq⟩
      exact ⟨⟨⟨hr1, hrn⟩, hsg1, hsgn⟩, (verifyEquation_iff_of_scalar ⟨hsg1, hsgn⟩).2 heq⟩

/-- Settles O59. u1·G + u2·Q is [k]G for the nonce k that SIGN kept, so its x mod n is r; SIG lies apart from PUB and
DIGEST. -/
theorem signThenVerifyAccepts : Obligations.SignThenVerifyAccepts := by
  intro s t x y hwf hbusy hkey hpub hsign hidle hok
  obtain ⟨c, r, sg, count, hd, hkept, rfl⟩ := sign_of_ok hbusy hsign hidle hok
  obtain ⟨hbounds, hequation⟩ := verify_of_signKeep hd hkept
  obtain ⟨⟨-, hrn⟩, -, hsgn⟩ := inBounds_iff.1 hbounds
  have hwfR : (s.writeBuf 0x0C0 (be48 r)).buf.wf = true := State.wf_writeBuf hwf
  have hpub' := ((hpub.writeBuf (str := be48 r) hwf (by decide : 49 ≤ 0x0C0)).writeBuf (str := be48 sg) hwfR
    (by decide : 49 ≤ 0x0F0)).complete .ok count
  refine ⟨_, exec_verify_of_holdsPoint hpub', rfl, ?_⟩
  have hr : ((s.writeBuf 0x0C0 (be48 r)).writeBuf 0x0F0 (be48 sg)).bufInt 0x0C0 = r := by
    rw [State.bufInt_writeBuf_disjoint hwfR (.inl (by decide)),
      State.bufInt_writeBuf_same hwf (by decide) (hrn.trans (modulusValue_lt .n))]
  have hsg : ((s.writeBuf 0x0C0 (be48 r)).writeBuf 0x0F0 (be48 sg)).bufInt 0x0F0 = sg :=
    State.bufInt_writeBuf_same hwfR (by decide) (hsgn.trans (modulusValue_lt .n))
  have he : ((s.writeBuf 0x0C0 (be48 r)).writeBuf 0x0F0 (be48 sg)).bufInt 0x080 = s.bufInt 0x080 := by
    rw [State.bufInt_writeBuf_disjoint hwfR (.inl (by decide)), State.bufInt_writeBuf_disjoint hwf (.inl (by decide))]
  simp only [State.complete_vok, State.setVok_vok, State.bufInt_complete, hr, hsg, he, hbounds, ← hkey, hequation,
    Bool.and_self]

/-- Settles O60. Each party's SHARED is the x-coordinate of [dA][dB]G, in one order or the other. -/
theorem ecdhAgrees : Obligations.EcdhAgrees := by
  intro a b a' b' xA yA xB yB hwfA hwfB hbusyA hbusyB hkeyA hkeyB hpubA hpubB hA hB hidleA hidleB hokA hokB
  rw [ecdh_of_ok hwfA hbusyA hpubA hA hidleA hokA, ecdh_of_ok hwfB hbusyB hpubB hB hidleB hokB, ← hkeyA, ← hkeyB,
    Point.mul_mul_comm Point.generator_onE (a.bufInt_lt 0x040) (b.bufInt_lt 0x040)]

end Sys2Proof.Machine

/-! # The group law of E, and what the point commands do to the points their registers stand for -/

namespace Sys2Proof.Machine

set_option exponentiation.threshold 1000

/-! ### The laws of the group, for points of E (R16) -/

section Laws

theorem cast_fsub_zero (y : Nat) : (fsub 0 y : ZMod fieldPrime) = -y := by
  rw [cast_fsub, Nat.cast_zero, zero_sub]

/-- The model's negative is the group's. -/
theorem Point.ofGroup_neg [Fact fieldPrime.Prime] (Q : WeierstrassCurve.Affine.Point curve) :
    Point.ofGroup (-Q) = (Point.ofGroup Q).neg := by
  match Q with
  | .zero => rfl
  | .some x y h =>
    rw [WeierstrassCurve.Affine.Point.neg_some, Point.ofGroup, Point.ofGroup, Point.neg]
    refine congrArg (Point.affine x.val) (eq_val_of_cast_eq (fsub_lt _ _) ?_).symm
    rw [cast_fsub_zero, ZMod.natCast_zmod_val, curve_negY]

variable {P Q R : Point} (hP : P.onE) (hQ : Q.onE) (hR : R.onE)

include hP

theorem Point.neg_onE : P.neg.onE := by
  have := Fact.mk fieldPrime_prime
  obtain ⟨p, rfl⟩ := Point.exists_ofGroup_of_onE hP
  rw [← Point.ofGroup_neg]
  exact Point.ofGroup_onE _

theorem Point.neg_neg_of_onE : P.neg.neg = P := by
  have := Fact.mk fieldPrime_prime
  obtain ⟨p, rfl⟩ := Point.exists_ofGroup_of_onE hP
  rw [← Point.ofGroup_neg, ← Point.ofGroup_neg, neg_neg]

theorem Point.add_neg_of_onE : P.add P.neg = .infinity := by
  have := Fact.mk fieldPrime_prime
  obtain ⟨p, rfl⟩ := Point.exists_ofGroup_of_onE hP
  rw [← Point.ofGroup_neg, ← Point.ofGroup_add, add_neg_cancel, Point.ofGroup_zero]

include hQ

theorem Point.add_onE : (P.add Q).onE := by
  have := Fact.mk fieldPrime_prime
  obtain ⟨p, rfl⟩ := Point.exists_ofGroup_of_onE hP
  obtain ⟨q, rfl⟩ := Point.exists_ofGroup_of_onE hQ
  rw [← Point.ofGroup_add]
  exact Point.ofGroup_onE _

theorem Point.add_comm_of_onE : P.add Q = Q.add P := by
  have := Fact.mk fieldPrime_prime
  obtain ⟨p, rfl⟩ := Point.exists_ofGroup_of_onE hP
  obtain ⟨q, rfl⟩ := Point.exists_ofGroup_of_onE hQ
  rw [← Point.ofGroup_add, ← Point.ofGroup_add, add_comm]

/-- The sum of P + Q and P − Q (R182). -/
theorem Point.add_add_sub : (P.add Q).add (P.add Q.neg) = P.add P := by
  have := Fact.mk fieldPrime_prime
  obtain ⟨p, rfl⟩ := Point.exists_ofGroup_of_onE hP
  obtain ⟨q, rfl⟩ := Point.exists_ofGroup_of_onE hQ
  rw [← Point.ofGroup_neg, ← Point.ofGroup_add, ← Point.ofGroup_add, ← Point.ofGroup_add, ← Point.ofGroup_add]
  congr 1
  abel

include hR

theorem Point.add_assoc_of_onE : (P.add Q).add R = P.add (Q.add R) := by
  have := Fact.mk fieldPrime_prime
  obtain ⟨p, rfl⟩ := Point.exists_ofGroup_of_onE hP
  obtain ⟨q, rfl⟩ := Point.exists_ofGroup_of_onE hQ
  obtain ⟨r, rfl⟩ := Point.exists_ofGroup_of_onE hR
  rw [← Point.ofGroup_add, ← Point.ofGroup_add, ← Point.ofGroup_add, ← Point.ofGroup_add, add_assoc]

end Laws

theorem Point.add_infinity (P : Point) : P.add .infinity = P := by cases P <;> rfl

/-- [n]G = O, n being the order of the group. -/
theorem Point.mul_groupOrder_generator : Point.mul groupOrder generator = .infinity := by
  have := Fact.mk fieldPrime_prime
  obtain ⟨G, hG⟩ := Point.exists_ofGroup_of_onE Point.generator_onE
  have hbits : groupOrder < 2 ^ 384 := modulusValue_lt .n
  have hzero : groupOrder ≡ 0 [MOD groupOrder] := Nat.mod_self _
  rw [← hG, Point.mul_ofGroup G hbits, nsmul_eq_of_modEq G hzero, zero_nsmul, Point.ofGroup_zero]

/-! ### Triples and pairs at a common Z (R16, R162, R166, R168) -/

section Triples

variable {x y z : Nat} {p q : Nat × Nat}

theorem fmul_eq_zero_iff {a b : Nat} :
    fmul a b = 0 ↔ (a : ZMod fieldPrime) = 0 ∨ (b : ZMod fieldPrime) = 0 := by
  have := Fact.mk fieldPrime_prime
  rw [← mul_eq_zero, ← cast_fmul]
  refine ⟨fun h => by rw [h, Nat.cast_zero], fun h => eq_of_cast_eq (fmul_lt a b) fieldPrime_pos ?_⟩
  rw [h, Nat.cast_zero]

theorem cast_ne_zero_of_reduced (hz : z < fieldPrime) (hne : z ≠ 0) : (z : ZMod fieldPrime) ≠ 0 := fun h =>
  hne (eq_of_cast_eq hz fieldPrime_pos (by rw [h, Nat.cast_zero]))

/-- A triple with Z ≠ 0 whose doubled Z is 0 has Y = 0, so its point is its own negative. -/
theorem jacobianPoint_add_self_of_fmul_eq_zero (hz : (z : ZMod fieldPrime) ≠ 0) (h : fmul y z = 0) :
    (jacobianPoint x y z).add (jacobianPoint x y z) = .infinity := by
  have := Fact.mk fieldPrime_prime
  have hy : (y : ZMod fieldPrime) = 0 := (fmul_eq_zero_iff.1 h).resolve_right hz
  have hsum : fadd (fmul y (finv (fmul (fsqr z) z))) (fmul y (finv (fmul (fsqr z) z))) = 0 := by
    rw [fadd_eq_zero_iff, cast_fmul, hy, zero_mul, neg_zero]
  rw [jacobianPoint_of_ne_zero (ne_zero_of_cast_ne_zero hz), Point.add, if_pos rfl, if_pos hsum]

/-- The negative of the point of a triple is the point of the triple with Y negated. -/
theorem jacobianPoint_neg : jacobianPoint x (fsub 0 y) z = (jacobianPoint x y z).neg := by
  by_cases hz : z = 0
  · rw [jacobianPoint, jacobianPoint, if_pos hz, if_pos hz, Point.neg]
  · rw [jacobianPoint_of_ne_zero hz, jacobianPoint_of_ne_zero hz, Point.neg]
    refine congrArg (Point.affine _) (eq_of_cast_eq (fmul_lt _ _) (fsub_lt _ _) ?_)
    rw [cast_fmul, cast_fsub_zero, cast_fsub_zero, cast_fmul, neg_mul]

/-- CozAdd leaves the first point at the new Z (R166). -/
theorem jacobianPoint_cozAdd_fst (h : fmul z (fsub q.1 p.1) ≠ 0) :
    jacobianPoint (cozAdd p q).1.1 (cozAdd p q).1.2 (fmul z (fsub q.1 p.1)) = jacobianPoint p.1 p.2 z := by
  have := Fact.mk fieldPrime_prime
  obtain ⟨hz, hx⟩ := cast_ne_zero_of_fmul_ne_zero h
  rw [cast_fsub] at hx
  rw [jacobianPoint_of_ne_zero h, jacobianPoint_of_ne_zero (ne_zero_of_cast_ne_zero hz), cozAdd]
  congr 1
  · refine eq_of_cast_eq (fmul_lt _ _) (fmul_lt _ _) ?_
    simp only [cast_fsub, cast_fmul, cast_fsqr, cast_finv]
    field_simp
  · refine eq_of_cast_eq (fmul_lt _ _) (fmul_lt _ _) ?_
    simp only [cast_fsub, cast_fmul, cast_fsqr, cast_finv]
    field_simp

/-- CozAddC's second pair is CozAdd's (R165, R167). -/
theorem cozAddC_snd (p q : Nat × Nat) : (cozAddC p q).2 = (cozAdd p q).2 := by
  refine Prod.ext (eq_of_cast_eq (fsub_lt _ _) (fsub_lt _ _) ?_) (eq_of_cast_eq (fsub_lt _ _) (fsub_lt _ _) ?_)
  · simp only [cozAddC, cozAdd, cast_fsub, cast_fadd, cast_fmul, cast_fsqr]
    ring
  · simp only [cozAddC, cozAdd, cast_fsub, cast_fadd, cast_fmul, cast_fsqr]
    ring

/-- CozAddC's first pair is the sum that CozAdd makes with the second point negated (R165, R167). -/
theorem cozAddC_fst (p q : Nat × Nat) : (cozAddC p q).1 = (cozAdd p (q.1, fsub 0 q.2)).2 := by
  refine Prod.ext (eq_of_cast_eq (fsub_lt _ _) (fsub_lt _ _) ?_) (eq_of_cast_eq (fsub_lt _ _) (fsub_lt _ _) ?_)
  · simp only [cozAddC, cozAdd, cast_fsub, cast_fadd, cast_fmul, cast_fsqr, Nat.cast_zero]
    ring
  · simp only [cozAddC, cozAdd, cast_fsub, cast_fadd, cast_fmul, cast_fsqr, Nat.cast_zero]
    ring

/-- CozAddC gives the difference and the sum of two points, at the new Z (R168). -/
theorem jacobianPoint_cozAddC (h : fmul z (fsub q.1 p.1) ≠ 0) :
    jacobianPoint (cozAddC p q).1.1 (cozAddC p q).1.2 (fmul z (fsub q.1 p.1)) =
        (jacobianPoint p.1 p.2 z).add (jacobianPoint q.1 q.2 z).neg ∧
      jacobianPoint (cozAddC p q).2.1 (cozAddC p q).2.2 (fmul z (fsub q.1 p.1)) =
        (jacobianPoint p.1 p.2 z).add (jacobianPoint q.1 q.2 z) := by
  rw [cozAddC_fst, cozAddC_snd, ← jacobianPoint_neg]
  exact ⟨jacobianPoint_cozAdd (q := (q.1, fsub 0 q.2)) h, jacobianPoint_cozAdd h⟩

theorem fmul_fsub_ne_zero (hz : (z : ZMod fieldPrime) ≠ 0) (hx : (p.1 : ZMod fieldPrime) ≠ q.1) :
    fmul z (fsub q.1 p.1) ≠ 0 := by
  rw [Ne, fmul_eq_zero_iff, cast_fsub, sub_eq_zero]
  exact not_or.2 ⟨hz, hx.symm⟩

/-- Two points of E at one Z that are neither equal nor opposite have different x-coordinates. -/
theorem cast_fst_ne (hz : (z : ZMod fieldPrime) ≠ 0) (hp : (jacobianPoint p.1 p.2 z).onE)
    (hq : (jacobianPoint q.1 q.2 z).onE) (hne : jacobianPoint p.1 p.2 z ≠ jacobianPoint q.1 q.2 z)
    (hneg : jacobianPoint p.1 p.2 z ≠ (jacobianPoint q.1 q.2 z).neg) : (p.1 : ZMod fieldPrime) ≠ q.1 := by
  have := Fact.mk fieldPrime_prime
  intro hx
  have hzNat := ne_zero_of_cast_ne_zero hz
  have hxNat : fmul p.1 (finv (fsqr z)) = fmul q.1 (finv (fsqr z)) :=
    eq_of_cast_eq (fmul_lt _ _) (fmul_lt _ _) (by rw [cast_fmul, cast_fmul, hx])
  rw [jacobianPoint_of_ne_zero hzNat] at hp hq hne hneg
  rw [jacobianPoint_of_ne_zero hzNat, hxNat] at hne hneg
  rw [hxNat] at hp
  obtain ⟨-, hy, hcurve⟩ := hp
  obtain ⟨-, hy', hcurve'⟩ := hq
  rw [onCurve, beq_iff_eq] at hcurve hcurve'
  have hsq := congrArg (Nat.cast : Nat → ZMod fieldPrime) (hcurve.trans hcurve'.symm)
  rw [cast_fsqr, cast_fsqr] at hsq
  obtain heq | hopposite := sq_eq_sq_iff_eq_or_eq_neg.1 hsq
  · exact hne (congrArg _ (eq_of_cast_eq hy hy' heq))
  · exact hneg (congrArg _ (eq_of_cast_eq hy (fsub_lt _ _) (by rw [cast_fsub_zero, hopposite])))

/-- CozAddC and then CozAdd on its results give P + Q and [2]P at one Z, where neither meets equal x-coordinates
(R182). -/
theorem jacobianPoint_ladder {P Q : Point} (hz : (z : ZMod fieldPrime) ≠ 0) (hp : jacobianPoint p.1 p.2 z = P)
    (hq : jacobianPoint q.1 q.2 z = Q) (hP : P.onE) (hQ : Q.onE) (hne : P ≠ Q) (hneg : P ≠ Q.neg)
    (hne' : P.add Q ≠ P.add Q.neg) (hneg' : P.add Q ≠ (P.add Q.neg).neg) :
    ∃ z', z' < fieldPrime ∧ z' ≠ 0 ∧
      jacobianPoint (cozAdd (cozAddC p q).2 (cozAddC p q).1).1.1 (cozAdd (cozAddC p q).2 (cozAddC p q).1).1.2 z' =
        P.add Q ∧
      jacobianPoint (cozAdd (cozAddC p q).2 (cozAddC p q).1).2.1 (cozAdd (cozAddC p q).2 (cozAddC p q).1).2.2 z' =
        P.add P := by
  subst hp hq
  have hz1 := fmul_fsub_ne_zero hz (cast_fst_ne hz hP hQ hne hneg)
  obtain ⟨hdifference, hsum⟩ := jacobianPoint_cozAddC hz1
  have hcast := cast_ne_zero_of_reduced (fmul_lt _ _) hz1
  have hx := cast_fst_ne (p := (cozAddC p q).2) (q := (cozAddC p q).1) hcast (hsum ▸ Point.add_onE hP hQ)
    (hdifference ▸ Point.add_onE hP (Point.neg_onE hQ)) (hsum ▸ hdifference ▸ hne') (hsum ▸ hdifference ▸ hneg')
  have hz2 := fmul_fsub_ne_zero hcast hx
  refine ⟨_, fmul_lt _ _, hz2, ?_, ?_⟩
  · rw [jacobianPoint_cozAdd_fst hz2, hsum]
  · rw [jacobianPoint_cozAdd hz2, hsum, hdifference, Point.add_add_sub hP hQ]

end Triples

/-! ### The claims -/

/-- Settles O54. E is Mathlib's group of the curve; the order of that group is n. -/
theorem pointAddIsAGroupLaw : Obligations.PointAddIsAGroupLaw :=
  ⟨fun P _ hP hQ => ⟨Point.add_onE hP hQ, Point.neg_onE hP, Point.add_comm_of_onE hP hQ, Point.add_neg_of_onE hP,
      P.add_infinity⟩,
    fun _ _ _ hP hQ hR => Point.add_assoc_of_onE hP hQ hR, Point.generator_onE, Point.mul_groupOrder_generator⟩

/-- Settles O55. Both are the multiple in Mathlib's group of the curve. -/
theorem mulIsRepeatedAddition : Obligations.MulIsRepeatedAddition := fun _ _ hP hk => Point.mul_eq_repeated hP hk

/-- Settles O56. Where Z or Y is 0 the sum is O, as the new Z is 0; elsewhere the formulas are those of the tangent. -/
theorem jdblDoublesThePoint : Obligations.JdblDoublesThePoint := by
  intro rd s t hrd hx hy hz hexec P
  by_cases hzero : s.srcAt rd 2 = 0
  · have hnothing := (exec_jdbl_eq rd s hrd).trans (reduced_of_lt (by simp [hx, hy, hz]) s _)
    rw [if_pos hzero] at hnothing
    obtain rfl := Host.Outcome.next.inj (hexec.symm.trans hnothing)
    have hP : P = .infinity := if_pos hzero
    rw [hP]
    exact if_pos hzero
  · obtain ⟨t', hdouble, -, -, hvalue⟩ := exec_jdbl_of_reduced hrd hx hy hz hzero
    obtain rfl := Host.Outcome.next.inj (hexec.symm.trans hdouble)
    obtain ⟨hx', hy', hz'⟩ : _ ∧ _ ∧ _ := by simpa only [Prod.ext_iff] using hvalue
    rw [hx', hy', hz']
    by_cases hnew : fmul (s.srcAt rd 1) (s.srcAt rd 2) = 0
    · rw [jacobianPoint_add_self_of_fmul_eq_zero (cast_ne_zero_of_reduced hz hzero) hnew]
      exact if_pos hnew
    · exact jacobianPoint_jacobianDouble hnew

/-- Settles O57. Both commands write the pairs of their operation; CozAddC's are sums of CozAdd with the second point
as it is and negated. -/
theorem cozCommandsAddThePoints : Obligations.CozCommandsAddThePoints := by
  intro ra rb s Z hwellFormed hreduced hZ hne hx P Q Z3
  have hlegal := cozPairs_wellFormed_iff.1 hwellFormed
  have hp := State.coordsReduced_srcPair_iff.2 fun k hk => (hreduced k hk).1
  have hq := State.coordsReduced_srcPair_iff.2 fun k hk => (hreduced k hk).2
  have hxCast : (s.srcAt ra 0 : ZMod fieldPrime) ≠ s.srcAt rb 0 := fun h => hx (eq_of_cast_eq hp.1 hq.1 h)
  have hZ3 : fmul Z (fsub (s.srcPair rb).1 (s.srcPair ra).1) ≠ 0 :=
    fmul_fsub_ne_zero (cast_ne_zero_of_reduced hZ hne) hxCast
  refine ⟨?cozadd, ?cozaddc⟩
  case cozadd =>
    obtain ⟨t, hexec, -, -, -, hvalue⟩ :=
      exec_of_cozOperation hlegal hp hq (cozAdd_reduced _ _) (exec_cozadd_eq s hlegal)
    have hfirst := jacobianPoint_cozAdd_fst hZ3
    have hsum := jacobianPoint_cozAdd hZ3
    rw [← hvalue] at hfirst hsum
    exact ⟨t, hexec, hfirst, hsum⟩
  case cozaddc =>
    obtain ⟨t, hexec, -, -, -, hvalue⟩ :=
      exec_of_cozOperation hlegal hp hq (cozAddC_reduced _ _) (exec_cozaddc_eq s hlegal)
    have hboth := jacobianPoint_cozAddC hZ3
    rw [← hvalue] at hboth
    exact ⟨t, hexec, hboth⟩

/-- Settles O58. For bit 1 the ladder works on the pairs in the other order, and the sum commutes. -/
theorem ladderStepAdvances : Obligations.LadderStepAdvances := by
  intro ra imm s Z hra himm hreduced hZ hZ0 S0 S1 D hS0 hS1 hne hneg hne' hneg'
  have hz := cast_ne_zero_of_reduced hZ hZ0
  obtain ⟨t, hexec, -, -, hvalue⟩ := exec_lstep_of_reduced hra himm hreduced
  obtain rfl | rfl : imm = 0 ∨ imm = 1 := by
    rw [← BitVec.toNat_inj, ← BitVec.toNat_inj]
    exact Nat.le_one_iff_eq_zero_or_eq_one.1 himm
  · have hD : D = S0.add S1.neg := if_pos rfl
    rw [hD] at hne' hneg'
    obtain ⟨z', hlt, hnz, hsum, hdouble⟩ :=
      jacobianPoint_ladder (p := s.srcPairAt ra 0) (q := s.srcPairAt ra 2) hz rfl rfl hS0 hS1 hne hneg hne' hneg'
    obtain ⟨hfirst, hsecond⟩ : _ = (cozAdd _ _).2 ∧ _ = (cozAdd _ _).1 := Prod.ext_iff.1 hvalue
    rw [← hfirst] at hdouble
    rw [← hsecond] at hsum
    rw [if_pos rfl, if_pos rfl]
    exact ⟨t, z', hexec, hlt, hnz, hdouble, hsum⟩
  · have hD : D = S1.add S0.neg := if_neg (by decide)
    have hcomm : S0.add S1 = S1.add S0 := Point.add_comm_of_onE hS0 hS1
    have hneg1 : S1 ≠ S0.neg := fun h => hneg (by rw [h, Point.neg_neg_of_onE hS0])
    rw [hD, hcomm] at hne' hneg'
    obtain ⟨z', hlt, hnz, hsum, hdouble⟩ :=
      jacobianPoint_ladder (p := s.srcPairAt ra 2) (q := s.srcPairAt ra 0) hz rfl rfl hS1 hS0 hne.symm hneg1 hne' hneg'
    obtain ⟨hfirst, hsecond⟩ : _ = (cozAdd _ _).1 ∧ _ = (cozAdd _ _).2 := Prod.ext_iff.1 hvalue
    rw [← hfirst] at hsum
    rw [← hsecond] at hdouble
    rw [if_neg (by decide), if_neg (by decide), hcomm]
    exact ⟨t, z', hexec, hlt, hnz, hsum, hdouble⟩

end Sys2Proof.Machine
